-- ==== Sys2Proof/Word.lean ====
section
/-! DEFINITION. The word types of the SH7000 series CPU (rules R7 and R10 of spec/00_scope.md) and their plainest
arithmetic. The spec's "word" is 16 bits; the 32-bit register contents are its "longword". -/

namespace Sys2Proof

/-- A 32-bit longword: the contents of a register, or an address (R7, R10). -/
abbrev Word := BitVec 32

/-- A 16-bit datum, the spec's "word" (R10); also an instruction code (R80). -/
abbrev Half := BitVec 16

/-- An 8-bit byte, the addressable unit (R7, R10). -/
abbrev Byte := BitVec 8

/-- A register field: k selects general register Rk (R84). -/
abbrev Reg := BitVec 4

end Sys2Proof
end

