-- ==== Sys2Proof/Syntax.lean ====
section
/-! DEFINITION. The instructions: one constructor per row of spec/opcode_table.json, in the table's order, with the
fields of its layout (spec/30_encoding.md R82, R83). `n` is the destination register field, `m` the source register
field, `i` the immediate, `d` the displacement, each unextended and unscaled (spec/00_scope.md R12). Every value a field
can hold is an operand the encoding admits (R84), so a term of `Instr` is an instruction of the hardware. -/

namespace Sys2Proof

/-- The 133 instruction forms of Appendix A. Each constructor's comment gives the source's mnemonic and its rule. -/
inductive Instr where
  -- Data transfer instructions
  /-- MOV #imm,Rn (R121). -/
  | movImm (n : Reg) (i : BitVec 8)
  /-- MOV.W @(disp,PC),Rn (R122). -/
  | movwPc (n : Reg) (d : BitVec 8)
  /-- MOV.L @(disp,PC),Rn (R123). -/
  | movlPc (n : Reg) (d : BitVec 8)
  /-- MOV Rm,Rn (R124). -/
  | mov (n : Reg) (m : Reg)
  /-- MOV.B Rm,@Rn (R125). -/
  | movbStore (n : Reg) (m : Reg)
  /-- MOV.W Rm,@Rn (R126). -/
  | movwStore (n : Reg) (m : Reg)
  /-- MOV.L Rm,@Rn (R127). -/
  | movlStore (n : Reg) (m : Reg)
  /-- MOV.B @Rm,Rn (R128). -/
  | movbLoad (n : Reg) (m : Reg)
  /-- MOV.W @Rm,Rn (R129). -/
  | movwLoad (n : Reg) (m : Reg)
  /-- MOV.L @Rm,Rn (R130). -/
  | movlLoad (n : Reg) (m : Reg)
  /-- MOV.B Rm,@-Rn (R131). -/
  | movbPreDec (n : Reg) (m : Reg)
  /-- MOV.W Rm,@-Rn (R132). -/
  | movwPreDec (n : Reg) (m : Reg)
  /-- MOV.L Rm,@-Rn (R133). -/
  | movlPreDec (n : Reg) (m : Reg)
  /-- MOV.B @Rm+,Rn (R134). -/
  | movbPostInc (n : Reg) (m : Reg)
  /-- MOV.W @Rm+,Rn (R135). -/
  | movwPostInc (n : Reg) (m : Reg)
  /-- MOV.L @Rm+,Rn (R136). -/
  | movlPostInc (n : Reg) (m : Reg)
  /-- MOV.B R0,@(disp,Rn) (R137). -/
  | movbStoreDisp (n : Reg) (d : BitVec 4)
  /-- MOV.W R0,@(disp,Rn) (R138). -/
  | movwStoreDisp (n : Reg) (d : BitVec 4)
  /-- MOV.L Rm,@(disp,Rn) (R139). -/
  | movlStoreDisp (n : Reg) (m : Reg) (d : BitVec 4)
  /-- MOV.B @(disp,Rm),R0 (R140). -/
  | movbLoadDisp (m : Reg) (d : BitVec 4)
  /-- MOV.W @(disp,Rm),R0 (R141). -/
  | movwLoadDisp (m : Reg) (d : BitVec 4)
  /-- MOV.L @(disp,Rm),Rn (R142). -/
  | movlLoadDisp (n : Reg) (m : Reg) (d : BitVec 4)
  /-- MOV.B Rm,@(R0,Rn) (R143). -/
  | movbStoreIdx (n : Reg) (m : Reg)
  /-- MOV.W Rm,@(R0,Rn) (R144). -/
  | movwStoreIdx (n : Reg) (m : Reg)
  /-- MOV.L Rm,@(R0,Rn) (R145). -/
  | movlStoreIdx (n : Reg) (m : Reg)
  /-- MOV.B @(R0,Rm),Rn (R146). -/
  | movbLoadIdx (n : Reg) (m : Reg)
  /-- MOV.W @(R0,Rm),Rn (R147). -/
  | movwLoadIdx (n : Reg) (m : Reg)
  /-- MOV.L @(R0,Rm),Rn (R148). -/
  | movlLoadIdx (n : Reg) (m : Reg)
  /-- MOV.B R0,@(disp,GBR) (R149). -/
  | movbStoreGbr (d : BitVec 8)
  /-- MOV.W R0,@(disp,GBR) (R150). -/
  | movwStoreGbr (d : BitVec 8)
  /-- MOV.L R0,@(disp,GBR) (R151). -/
  | movlStoreGbr (d : BitVec 8)
  /-- MOV.B @(disp,GBR),R0 (R152). -/
  | movbLoadGbr (d : BitVec 8)
  /-- MOV.W @(disp,GBR),R0 (R153). -/
  | movwLoadGbr (d : BitVec 8)
  /-- MOV.L @(disp,GBR),R0 (R154). -/
  | movlLoadGbr (d : BitVec 8)
  /-- MOVA @(disp,PC),R0 (R155). -/
  | mova (d : BitVec 8)
  /-- MOVT Rn (R156). -/
  | movt (n : Reg)
  /-- SWAP.B Rm,Rn (R157). -/
  | swapb (n : Reg) (m : Reg)
  /-- SWAP.W Rm,Rn (R158). -/
  | swapw (n : Reg) (m : Reg)
  /-- XTRCT Rm,Rn (R159). -/
  | xtrct (n : Reg) (m : Reg)
  -- Arithmetic instructions
  /-- ADD Rm,Rn (R187). -/
  | add (n : Reg) (m : Reg)
  /-- ADD #imm,Rn (R188). -/
  | addImm (n : Reg) (i : BitVec 8)
  /-- ADDC Rm,Rn (R189). -/
  | addc (n : Reg) (m : Reg)
  /-- ADDV Rm,Rn (R190). -/
  | addv (n : Reg) (m : Reg)
  /-- CMP/EQ #imm,R0 (R191). -/
  | cmpEqImm (i : BitVec 8)
  /-- CMP/EQ Rm,Rn (R192). -/
  | cmpEq (n : Reg) (m : Reg)
  /-- CMP/HS Rm,Rn (R193). -/
  | cmpHs (n : Reg) (m : Reg)
  /-- CMP/GE Rm,Rn (R194). -/
  | cmpGe (n : Reg) (m : Reg)
  /-- CMP/HI Rm,Rn (R195). -/
  | cmpHi (n : Reg) (m : Reg)
  /-- CMP/GT Rm,Rn (R196). -/
  | cmpGt (n : Reg) (m : Reg)
  /-- CMP/PZ Rn (R197). -/
  | cmpPz (n : Reg)
  /-- CMP/PL Rn (R198). -/
  | cmpPl (n : Reg)
  /-- CMP/STR Rm,Rn (R199). -/
  | cmpStr (n : Reg) (m : Reg)
  /-- DIV1 Rm,Rn (R200). -/
  | div1 (n : Reg) (m : Reg)
  /-- DIV0S Rm,Rn (R201). -/
  | div0s (n : Reg) (m : Reg)
  /-- DIV0U (R202). -/
  | div0u
  /-- EXTS.B Rm,Rn (R203). -/
  | extsb (n : Reg) (m : Reg)
  /-- EXTS.W Rm,Rn (R204). -/
  | extsw (n : Reg) (m : Reg)
  /-- EXTU.B Rm,Rn (R205). -/
  | extub (n : Reg) (m : Reg)
  /-- EXTU.W Rm,Rn (R206). -/
  | extuw (n : Reg) (m : Reg)
  /-- MAC.W @Rm+,@Rn+ (R207). -/
  | macw (n : Reg) (m : Reg)
  /-- MULS Rm,Rn (R208). -/
  | muls (n : Reg) (m : Reg)
  /-- MULU Rm,Rn (R209). -/
  | mulu (n : Reg) (m : Reg)
  /-- NEG Rm,Rn (R210). -/
  | neg (n : Reg) (m : Reg)
  /-- NEGC Rm,Rn (R211). -/
  | negc (n : Reg) (m : Reg)
  /-- SUB Rm,Rn (R212). -/
  | sub (n : Reg) (m : Reg)
  /-- SUBC Rm,Rn (R213). -/
  | subc (n : Reg) (m : Reg)
  /-- SUBV Rm,Rn (R214). -/
  | subv (n : Reg) (m : Reg)
  -- Logic instructions
  /-- AND Rm,Rn (R233). -/
  | andReg (n : Reg) (m : Reg)
  /-- AND #imm,R0 (R234). -/
  | andImm (i : BitVec 8)
  /-- AND.B #imm,@(R0,GBR) (R235). -/
  | andByte (i : BitVec 8)
  /-- NOT Rm,Rn (R236). -/
  | notReg (n : Reg) (m : Reg)
  /-- OR Rm,Rn (R237). -/
  | orReg (n : Reg) (m : Reg)
  /-- OR #imm,R0 (R238). -/
  | orImm (i : BitVec 8)
  /-- OR.B #imm,@(R0,GBR) (R239). -/
  | orByte (i : BitVec 8)
  /-- TAS.B @Rn (R240). -/
  | tasb (n : Reg)
  /-- TST Rm,Rn (R241). -/
  | tstReg (n : Reg) (m : Reg)
  /-- TST #imm,R0 (R242). -/
  | tstImm (i : BitVec 8)
  /-- TST.B #imm,@(R0,GBR) (R243). -/
  | tstByte (i : BitVec 8)
  /-- XOR Rm,Rn (R244). -/
  | xorReg (n : Reg) (m : Reg)
  /-- XOR #imm,R0 (R245). -/
  | xorImm (i : BitVec 8)
  /-- XOR.B #imm,@(R0,GBR) (R246). -/
  | xorByte (i : BitVec 8)
  -- Shift instructions
  /-- ROTL Rn (R262). -/
  | rotl (n : Reg)
  /-- ROTR Rn (R263). -/
  | rotr (n : Reg)
  /-- ROTCL Rn (R264). -/
  | rotcl (n : Reg)
  /-- ROTCR Rn (R265). -/
  | rotcr (n : Reg)
  /-- SHAL Rn (R266). -/
  | shal (n : Reg)
  /-- SHAR Rn (R267). -/
  | shar (n : Reg)
  /-- SHLL Rn (R268). -/
  | shll (n : Reg)
  /-- SHLR Rn (R269). -/
  | shlr (n : Reg)
  /-- SHLL2 Rn (R270). -/
  | shll2 (n : Reg)
  /-- SHLR2 Rn (R271). -/
  | shlr2 (n : Reg)
  /-- SHLL8 Rn (R272). -/
  | shll8 (n : Reg)
  /-- SHLR8 Rn (R273). -/
  | shlr8 (n : Reg)
  /-- SHLL16 Rn (R274). -/
  | shll16 (n : Reg)
  /-- SHLR16 Rn (R275). -/
  | shlr16 (n : Reg)
  -- Branch instructions
  /-- BF label (R295). -/
  | bf (d : BitVec 8)
  /-- BT label (R296). -/
  | bt (d : BitVec 8)
  /-- BRA label (R297). -/
  | bra (d : BitVec 12)
  /-- BSR label (R298). -/
  | bsr (d : BitVec 12)
  /-- JMP @Rm (R299). -/
  | jmp (m : Reg)
  /-- JSR @Rm (R300). -/
  | jsr (m : Reg)
  /-- RTS (R301). -/
  | rts
  -- System control instructions
  /-- CLRT (R329). -/
  | clrt
  /-- CLRMAC (R330). -/
  | clrmac
  /-- LDC Rm,SR (R331). -/
  | ldcSr (m : Reg)
  /-- LDC Rm,GBR (R332). -/
  | ldcGbr (m : Reg)
  /-- LDC Rm,VBR (R333). -/
  | ldcVbr (m : Reg)
  /-- LDC.L @Rm+,SR (R334). -/
  | ldclSr (m : Reg)
  /-- LDC.L @Rm+,GBR (R335). -/
  | ldclGbr (m : Reg)
  /-- LDC.L @Rm+,VBR (R336). -/
  | ldclVbr (m : Reg)
  /-- LDS Rm,MACH (R337). -/
  | ldsMach (m : Reg)
  /-- LDS Rm,MACL (R338). -/
  | ldsMacl (m : Reg)
  /-- LDS Rm,PR (R339). -/
  | ldsPr (m : Reg)
  /-- LDS.L @Rm+,MACH (R340). -/
  | ldslMach (m : Reg)
  /-- LDS.L @Rm+,MACL (R341). -/
  | ldslMacl (m : Reg)
  /-- LDS.L @Rm+,PR (R342). -/
  | ldslPr (m : Reg)
  /-- NOP (R343). -/
  | nop
  /-- RTE (R344). -/
  | rte
  /-- SETT (R345). -/
  | sett
  /-- SLEEP (R346). -/
  | sleep
  /-- STC SR,Rn (R347). -/
  | stcSr (n : Reg)
  /-- STC GBR,Rn (R348). -/
  | stcGbr (n : Reg)
  /-- STC VBR,Rn (R349). -/
  | stcVbr (n : Reg)
  /-- STC.L SR,@-Rn (R350). -/
  | stclSr (n : Reg)
  /-- STC.L GBR,@-Rn (R351). -/
  | stclGbr (n : Reg)
  /-- STC.L VBR,@-Rn (R352). -/
  | stclVbr (n : Reg)
  /-- STS MACH,Rn (R353). -/
  | stsMach (n : Reg)
  /-- STS MACL,Rn (R354). -/
  | stsMacl (n : Reg)
  /-- STS PR,Rn (R355). -/
  | stsPr (n : Reg)
  /-- STS.L MACH,@-Rn (R356). -/
  | stslMach (n : Reg)
  /-- STS.L MACL,@-Rn (R357). -/
  | stslMacl (n : Reg)
  /-- STS.L PR,@-Rn (R358). -/
  | stslPr (n : Reg)
  /-- TRAPA #imm (R359). -/
  | trapa (i : BitVec 8)
  deriving DecidableEq, Repr

end Sys2Proof
end

