-- ==== Sys2Proof/WellFormed.lean ====
section
/-! DEFINITION. What the spec says of instructions as text: the row of the opcode table each one belongs to, which codes
are defined at all, and which instructions may stand where in a program (delayed branches and delay slots). A single
term of `Instr` is always well formed: its fields have exactly the widths of the encoding (spec/30_encoding.md R82, R84).
What can be ill formed is a 16-bit code (R89) and a sequence of instructions (spec/44_branch.md R292). -/

namespace Sys2Proof

/-- The "Execution Cycles" column of Appendix A (spec/70_reset_and_hazards.md R432), carried as data only (R435, log
entry 28). -/
inductive Cycles where
  /-- A plain count. -/
  | fixed (n : Nat)
  /-- "1(-3)", note 2: normally the first, up to the second when MACL is read at once. -/
  | upTo (normal most : Nat)
  /-- "3/(2)", note 1: normally the first, possibly the second due to the following instruction. -/
  | orFewer (normal least : Nat)
  /-- "3/1": the first when branching, the second when not. -/
  | branch (taken notTaken : Nat)
  /-- "3*": the count of SLEEP, whose footnote the source has lost. -/
  | footnote (n : Nat)
  deriving DecidableEq, Repr

/-- One row of the opcode table: a code belongs to it when its bits under `mask` are `code` (R82, R87). -/
structure OpRow where
  mask : BitVec 16
  code : BitVec 16
  cycles : Cycles
  deriving DecidableEq, Repr

/-- `op & mask = match` of R87. -/
def OpRow.selects (r : OpRow) (op : BitVec 16) : Bool := op &&& r.mask == r.code

/-- The row of spec/opcode_table.json of each instruction. -/
def Instr.row : Instr → OpRow
  | .movImm _ _ => ⟨0xF000#16, 0xE000#16, .fixed 1⟩
  | .movwPc _ _ => ⟨0xF000#16, 0x9000#16, .fixed 1⟩
  | .movlPc _ _ => ⟨0xF000#16, 0xD000#16, .fixed 1⟩
  | .mov _ _ => ⟨0xF00F#16, 0x6003#16, .fixed 1⟩
  | .movbStore _ _ => ⟨0xF00F#16, 0x2000#16, .fixed 1⟩
  | .movwStore _ _ => ⟨0xF00F#16, 0x2001#16, .fixed 1⟩
  | .movlStore _ _ => ⟨0xF00F#16, 0x2002#16, .fixed 1⟩
  | .movbLoad _ _ => ⟨0xF00F#16, 0x6000#16, .fixed 1⟩
  | .movwLoad _ _ => ⟨0xF00F#16, 0x6001#16, .fixed 1⟩
  | .movlLoad _ _ => ⟨0xF00F#16, 0x6002#16, .fixed 1⟩
  | .movbPreDec _ _ => ⟨0xF00F#16, 0x2004#16, .fixed 1⟩
  | .movwPreDec _ _ => ⟨0xF00F#16, 0x2005#16, .fixed 1⟩
  | .movlPreDec _ _ => ⟨0xF00F#16, 0x2006#16, .fixed 1⟩
  | .movbPostInc _ _ => ⟨0xF00F#16, 0x6004#16, .fixed 1⟩
  | .movwPostInc _ _ => ⟨0xF00F#16, 0x6005#16, .fixed 1⟩
  | .movlPostInc _ _ => ⟨0xF00F#16, 0x6006#16, .fixed 1⟩
  | .movbStoreDisp _ _ => ⟨0xFF00#16, 0x8000#16, .fixed 1⟩
  | .movwStoreDisp _ _ => ⟨0xFF00#16, 0x8100#16, .fixed 1⟩
  | .movlStoreDisp _ _ _ => ⟨0xF000#16, 0x1000#16, .fixed 1⟩
  | .movbLoadDisp _ _ => ⟨0xFF00#16, 0x8400#16, .fixed 1⟩
  | .movwLoadDisp _ _ => ⟨0xFF00#16, 0x8500#16, .fixed 1⟩
  | .movlLoadDisp _ _ _ => ⟨0xF000#16, 0x5000#16, .fixed 1⟩
  | .movbStoreIdx _ _ => ⟨0xF00F#16, 0x0004#16, .fixed 1⟩
  | .movwStoreIdx _ _ => ⟨0xF00F#16, 0x0005#16, .fixed 1⟩
  | .movlStoreIdx _ _ => ⟨0xF00F#16, 0x0006#16, .fixed 1⟩
  | .movbLoadIdx _ _ => ⟨0xF00F#16, 0x000C#16, .fixed 1⟩
  | .movwLoadIdx _ _ => ⟨0xF00F#16, 0x000D#16, .fixed 1⟩
  | .movlLoadIdx _ _ => ⟨0xF00F#16, 0x000E#16, .fixed 1⟩
  | .movbStoreGbr _ => ⟨0xFF00#16, 0xC000#16, .fixed 1⟩
  | .movwStoreGbr _ => ⟨0xFF00#16, 0xC100#16, .fixed 1⟩
  | .movlStoreGbr _ => ⟨0xFF00#16, 0xC200#16, .fixed 1⟩
  | .movbLoadGbr _ => ⟨0xFF00#16, 0xC400#16, .fixed 1⟩
  | .movwLoadGbr _ => ⟨0xFF00#16, 0xC500#16, .fixed 1⟩
  | .movlLoadGbr _ => ⟨0xFF00#16, 0xC600#16, .fixed 1⟩
  | .mova _ => ⟨0xFF00#16, 0xC700#16, .fixed 1⟩
  | .movt _ => ⟨0xF0FF#16, 0x0029#16, .fixed 1⟩
  | .swapb _ _ => ⟨0xF00F#16, 0x6008#16, .fixed 1⟩
  | .swapw _ _ => ⟨0xF00F#16, 0x6009#16, .fixed 1⟩
  | .xtrct _ _ => ⟨0xF00F#16, 0x200D#16, .fixed 1⟩
  | .add _ _ => ⟨0xF00F#16, 0x300C#16, .fixed 1⟩
  | .addImm _ _ => ⟨0xF000#16, 0x7000#16, .fixed 1⟩
  | .addc _ _ => ⟨0xF00F#16, 0x300E#16, .fixed 1⟩
  | .addv _ _ => ⟨0xF00F#16, 0x300F#16, .fixed 1⟩
  | .cmpEqImm _ => ⟨0xFF00#16, 0x8800#16, .fixed 1⟩
  | .cmpEq _ _ => ⟨0xF00F#16, 0x3000#16, .fixed 1⟩
  | .cmpHs _ _ => ⟨0xF00F#16, 0x3002#16, .fixed 1⟩
  | .cmpGe _ _ => ⟨0xF00F#16, 0x3003#16, .fixed 1⟩
  | .cmpHi _ _ => ⟨0xF00F#16, 0x3006#16, .fixed 1⟩
  | .cmpGt _ _ => ⟨0xF00F#16, 0x3007#16, .fixed 1⟩
  | .cmpPz _ => ⟨0xF0FF#16, 0x4011#16, .fixed 1⟩
  | .cmpPl _ => ⟨0xF0FF#16, 0x4015#16, .fixed 1⟩
  | .cmpStr _ _ => ⟨0xF00F#16, 0x200C#16, .fixed 1⟩
  | .div1 _ _ => ⟨0xF00F#16, 0x3004#16, .fixed 1⟩
  | .div0s _ _ => ⟨0xF00F#16, 0x2007#16, .fixed 1⟩
  | .div0u => ⟨0xFFFF#16, 0x0019#16, .fixed 1⟩
  | .extsb _ _ => ⟨0xF00F#16, 0x600E#16, .fixed 1⟩
  | .extsw _ _ => ⟨0xF00F#16, 0x600F#16, .fixed 1⟩
  | .extub _ _ => ⟨0xF00F#16, 0x600C#16, .fixed 1⟩
  | .extuw _ _ => ⟨0xF00F#16, 0x600D#16, .fixed 1⟩
  | .macw _ _ => ⟨0xF00F#16, 0x400F#16, .orFewer 3 2⟩
  | .muls _ _ => ⟨0xF00F#16, 0x200F#16, .upTo 1 3⟩
  | .mulu _ _ => ⟨0xF00F#16, 0x200E#16, .upTo 1 3⟩
  | .neg _ _ => ⟨0xF00F#16, 0x600B#16, .fixed 1⟩
  | .negc _ _ => ⟨0xF00F#16, 0x600A#16, .fixed 1⟩
  | .sub _ _ => ⟨0xF00F#16, 0x3008#16, .fixed 1⟩
  | .subc _ _ => ⟨0xF00F#16, 0x300A#16, .fixed 1⟩
  | .subv _ _ => ⟨0xF00F#16, 0x300B#16, .fixed 1⟩
  | .andReg _ _ => ⟨0xF00F#16, 0x2009#16, .fixed 1⟩
  | .andImm _ => ⟨0xFF00#16, 0xC900#16, .fixed 1⟩
  | .andByte _ => ⟨0xFF00#16, 0xCD00#16, .fixed 3⟩
  | .notReg _ _ => ⟨0xF00F#16, 0x6007#16, .fixed 1⟩
  | .orReg _ _ => ⟨0xF00F#16, 0x200B#16, .fixed 1⟩
  | .orImm _ => ⟨0xFF00#16, 0xCB00#16, .fixed 1⟩
  | .orByte _ => ⟨0xFF00#16, 0xCF00#16, .fixed 3⟩
  | .tasb _ => ⟨0xF0FF#16, 0x401B#16, .fixed 4⟩
  | .tstReg _ _ => ⟨0xF00F#16, 0x2008#16, .fixed 1⟩
  | .tstImm _ => ⟨0xFF00#16, 0xC800#16, .fixed 1⟩
  | .tstByte _ => ⟨0xFF00#16, 0xCC00#16, .fixed 3⟩
  | .xorReg _ _ => ⟨0xF00F#16, 0x200A#16, .fixed 1⟩
  | .xorImm _ => ⟨0xFF00#16, 0xCA00#16, .fixed 1⟩
  | .xorByte _ => ⟨0xFF00#16, 0xCE00#16, .fixed 3⟩
  | .rotl _ => ⟨0xF0FF#16, 0x4004#16, .fixed 1⟩
  | .rotr _ => ⟨0xF0FF#16, 0x4005#16, .fixed 1⟩
  | .rotcl _ => ⟨0xF0FF#16, 0x4024#16, .fixed 1⟩
  | .rotcr _ => ⟨0xF0FF#16, 0x4025#16, .fixed 1⟩
  | .shal _ => ⟨0xF0FF#16, 0x4020#16, .fixed 1⟩
  | .shar _ => ⟨0xF0FF#16, 0x4021#16, .fixed 1⟩
  | .shll _ => ⟨0xF0FF#16, 0x4000#16, .fixed 1⟩
  | .shlr _ => ⟨0xF0FF#16, 0x4001#16, .fixed 1⟩
  | .shll2 _ => ⟨0xF0FF#16, 0x4008#16, .fixed 1⟩
  | .shlr2 _ => ⟨0xF0FF#16, 0x4009#16, .fixed 1⟩
  | .shll8 _ => ⟨0xF0FF#16, 0x4018#16, .fixed 1⟩
  | .shlr8 _ => ⟨0xF0FF#16, 0x4019#16, .fixed 1⟩
  | .shll16 _ => ⟨0xF0FF#16, 0x4028#16, .fixed 1⟩
  | .shlr16 _ => ⟨0xF0FF#16, 0x4029#16, .fixed 1⟩
  | .bf _ => ⟨0xFF00#16, 0x8B00#16, .branch 3 1⟩
  | .bt _ => ⟨0xFF00#16, 0x8900#16, .branch 3 1⟩
  | .bra _ => ⟨0xF000#16, 0xA000#16, .fixed 2⟩
  | .bsr _ => ⟨0xF000#16, 0xB000#16, .fixed 2⟩
  | .jmp _ => ⟨0xF0FF#16, 0x402B#16, .fixed 2⟩
  | .jsr _ => ⟨0xF0FF#16, 0x400B#16, .fixed 2⟩
  | .rts => ⟨0xFFFF#16, 0x000B#16, .fixed 2⟩
  | .clrt => ⟨0xFFFF#16, 0x0008#16, .fixed 1⟩
  | .clrmac => ⟨0xFFFF#16, 0x0028#16, .fixed 1⟩
  | .ldcSr _ => ⟨0xF0FF#16, 0x400E#16, .fixed 1⟩
  | .ldcGbr _ => ⟨0xF0FF#16, 0x401E#16, .fixed 1⟩
  | .ldcVbr _ => ⟨0xF0FF#16, 0x402E#16, .fixed 1⟩
  | .ldclSr _ => ⟨0xF0FF#16, 0x4007#16, .fixed 3⟩
  | .ldclGbr _ => ⟨0xF0FF#16, 0x4017#16, .fixed 3⟩
  | .ldclVbr _ => ⟨0xF0FF#16, 0x4027#16, .fixed 3⟩
  | .ldsMach _ => ⟨0xF0FF#16, 0x400A#16, .fixed 1⟩
  | .ldsMacl _ => ⟨0xF0FF#16, 0x401A#16, .fixed 1⟩
  | .ldsPr _ => ⟨0xF0FF#16, 0x402A#16, .fixed 1⟩
  | .ldslMach _ => ⟨0xF0FF#16, 0x4006#16, .fixed 1⟩
  | .ldslMacl _ => ⟨0xF0FF#16, 0x4016#16, .fixed 1⟩
  | .ldslPr _ => ⟨0xF0FF#16, 0x4026#16, .fixed 1⟩
  | .nop => ⟨0xFFFF#16, 0x0009#16, .fixed 1⟩
  | .rte => ⟨0xFFFF#16, 0x002B#16, .fixed 4⟩
  | .sett => ⟨0xFFFF#16, 0x0018#16, .fixed 1⟩
  | .sleep => ⟨0xFFFF#16, 0x001B#16, .footnote 3⟩
  | .stcSr _ => ⟨0xF0FF#16, 0x0002#16, .fixed 1⟩
  | .stcGbr _ => ⟨0xF0FF#16, 0x0012#16, .fixed 1⟩
  | .stcVbr _ => ⟨0xF0FF#16, 0x0022#16, .fixed 1⟩
  | .stclSr _ => ⟨0xF0FF#16, 0x4003#16, .fixed 2⟩
  | .stclGbr _ => ⟨0xF0FF#16, 0x4013#16, .fixed 2⟩
  | .stclVbr _ => ⟨0xF0FF#16, 0x4023#16, .fixed 2⟩
  | .stsMach _ => ⟨0xF0FF#16, 0x000A#16, .fixed 1⟩
  | .stsMacl _ => ⟨0xF0FF#16, 0x001A#16, .fixed 1⟩
  | .stsPr _ => ⟨0xF0FF#16, 0x002A#16, .fixed 1⟩
  | .stslMach _ => ⟨0xF0FF#16, 0x4002#16, .fixed 1⟩
  | .stslMacl _ => ⟨0xF0FF#16, 0x4012#16, .fixed 1⟩
  | .stslPr _ => ⟨0xF0FF#16, 0x4022#16, .fixed 1⟩
  | .trapa _ => ⟨0xFF00#16, 0xC300#16, .fixed 8⟩

/-- The rows of the data transfer family, each taken from an instruction of its form. -/
def dataTransferRows : List OpRow := [
  (Instr.movImm 0 0).row, (Instr.movwPc 0 0).row, (Instr.movlPc 0 0).row, (Instr.mov 0 0).row,
  (Instr.movbStore 0 0).row, (Instr.movwStore 0 0).row, (Instr.movlStore 0 0).row, (Instr.movbLoad 0 0).row,
  (Instr.movwLoad 0 0).row, (Instr.movlLoad 0 0).row, (Instr.movbPreDec 0 0).row, (Instr.movwPreDec 0 0).row,
  (Instr.movlPreDec 0 0).row, (Instr.movbPostInc 0 0).row, (Instr.movwPostInc 0 0).row,
  (Instr.movlPostInc 0 0).row, (Instr.movbStoreDisp 0 0).row, (Instr.movwStoreDisp 0 0).row,
  (Instr.movlStoreDisp 0 0 0).row, (Instr.movbLoadDisp 0 0).row, (Instr.movwLoadDisp 0 0).row,
  (Instr.movlLoadDisp 0 0 0).row, (Instr.movbStoreIdx 0 0).row, (Instr.movwStoreIdx 0 0).row,
  (Instr.movlStoreIdx 0 0).row, (Instr.movbLoadIdx 0 0).row, (Instr.movwLoadIdx 0 0).row,
  (Instr.movlLoadIdx 0 0).row, (Instr.movbStoreGbr 0).row, (Instr.movwStoreGbr 0).row,
  (Instr.movlStoreGbr 0).row, (Instr.movbLoadGbr 0).row, (Instr.movwLoadGbr 0).row, (Instr.movlLoadGbr 0).row,
  (Instr.mova 0).row, (Instr.movt 0).row, (Instr.swapb 0 0).row, (Instr.swapw 0 0).row, (Instr.xtrct 0 0).row]

/-- The rows of the arithmetic family, each taken from an instruction of its form. -/
def arithmeticRows : List OpRow := [
  (Instr.add 0 0).row, (Instr.addImm 0 0).row, (Instr.addc 0 0).row, (Instr.addv 0 0).row,
  (Instr.cmpEqImm 0).row, (Instr.cmpEq 0 0).row, (Instr.cmpHs 0 0).row, (Instr.cmpGe 0 0).row,
  (Instr.cmpHi 0 0).row, (Instr.cmpGt 0 0).row, (Instr.cmpPz 0).row, (Instr.cmpPl 0).row,
  (Instr.cmpStr 0 0).row, (Instr.div1 0 0).row, (Instr.div0s 0 0).row, (Instr.div0u).row,
  (Instr.extsb 0 0).row, (Instr.extsw 0 0).row, (Instr.extub 0 0).row, (Instr.extuw 0 0).row,
  (Instr.macw 0 0).row, (Instr.muls 0 0).row, (Instr.mulu 0 0).row, (Instr.neg 0 0).row, (Instr.negc 0 0).row,
  (Instr.sub 0 0).row, (Instr.subc 0 0).row, (Instr.subv 0 0).row]

/-- The rows of the logic family, each taken from an instruction of its form. -/
def logicRows : List OpRow := [
  (Instr.andReg 0 0).row, (Instr.andImm 0).row, (Instr.andByte 0).row, (Instr.notReg 0 0).row,
  (Instr.orReg 0 0).row, (Instr.orImm 0).row, (Instr.orByte 0).row, (Instr.tasb 0).row, (Instr.tstReg 0 0).row,
  (Instr.tstImm 0).row, (Instr.tstByte 0).row, (Instr.xorReg 0 0).row, (Instr.xorImm 0).row,
  (Instr.xorByte 0).row]

/-- The rows of the shift family, each taken from an instruction of its form. -/
def shiftRows : List OpRow := [
  (Instr.rotl 0).row, (Instr.rotr 0).row, (Instr.rotcl 0).row, (Instr.rotcr 0).row, (Instr.shal 0).row,
  (Instr.shar 0).row, (Instr.shll 0).row, (Instr.shlr 0).row, (Instr.shll2 0).row, (Instr.shlr2 0).row,
  (Instr.shll8 0).row, (Instr.shlr8 0).row, (Instr.shll16 0).row, (Instr.shlr16 0).row]

/-- The rows of the branch family, each taken from an instruction of its form. -/
def branchRows : List OpRow := [
  (Instr.bf 0).row, (Instr.bt 0).row, (Instr.bra 0).row, (Instr.bsr 0).row, (Instr.jmp 0).row,
  (Instr.jsr 0).row, (Instr.rts).row]

/-- The rows of the system control family, each taken from an instruction of its form. -/
def systemControlRows : List OpRow := [
  (Instr.clrt).row, (Instr.clrmac).row, (Instr.ldcSr 0).row, (Instr.ldcGbr 0).row, (Instr.ldcVbr 0).row,
  (Instr.ldclSr 0).row, (Instr.ldclGbr 0).row, (Instr.ldclVbr 0).row, (Instr.ldsMach 0).row,
  (Instr.ldsMacl 0).row, (Instr.ldsPr 0).row, (Instr.ldslMach 0).row, (Instr.ldslMacl 0).row,
  (Instr.ldslPr 0).row, (Instr.nop).row, (Instr.rte).row, (Instr.sett).row, (Instr.sleep).row,
  (Instr.stcSr 0).row, (Instr.stcGbr 0).row, (Instr.stcVbr 0).row, (Instr.stclSr 0).row, (Instr.stclGbr 0).row,
  (Instr.stclVbr 0).row, (Instr.stsMach 0).row, (Instr.stsMacl 0).row, (Instr.stsPr 0).row,
  (Instr.stslMach 0).row, (Instr.stslMacl 0).row, (Instr.stslPr 0).row, (Instr.trapa 0).row]

/-- The opcode table, 133 rows (R87). -/
def opcodeRows : List OpRow :=
  dataTransferRows ++ arithmeticRows ++ logicRows ++ shiftRows ++ branchRows ++ systemControlRows

/-- A 16-bit code is defined when some row selects it (R87); every other code is an undefined instruction code (R89). -/
def definedCode (op : BitVec 16) : Bool := opcodeRows.any (·.selects op)

/-- The delayed branches: "The unconditional branch instructions (BRA, BSR, JMP, JSR, RTS, and RTE) are delayed branch
instructions" (R291). -/
def Instr.isDelayedBranch : Instr → Bool
  | .bra _ | .bsr _ | .jmp _ | .jsr _ | .rts | .rte => true
  | _ => false

/-- The twelve forms that must not stand in a delay slot (R292): the delayed branches, BF, BT, TRAPA, MOVA and the two
loads relative to the PC. -/
def Instr.slotForbidden : Instr → Bool
  | .bra _ | .bsr _ | .jmp _ | .jsr _ | .rts | .rte => true
  | .bf _ | .bt _ | .trapa _ | .mova _ | .movwPc _ _ | .movlPc _ _ => true
  | _ => false

/-- A straight sequence of instructions is well formed when every delayed branch is followed by an instruction that may
stand in its delay slot (R292, R429 item 1): none may be last, and none may have a forbidden form after it. -/
def slotsWellFormed : List Instr → Bool
  | [] => true
  | i :: rest =>
    (if i.isDelayedBranch then
      match rest with
      | [] => false
      | slot :: _ => !slot.slotForbidden
     else true) && slotsWellFormed rest

end Sys2Proof
end

