-- ==== Sys2Proof/Decode.lean ====
section
/-! DEFINITION. Decoding and encoding (spec/30_encoding.md R80 to R89). An instruction is one 16-bit code, most
significant byte first in memory (R81); the decoder follows the opcode map of R88, top nibble first, and refuses every
code of R89 by name. The encoder writes the codes from the patterns of spec/opcode_table.json. -/

namespace Sys2Proof

/-- Why a sequence of bytes is not an instruction. -/
inductive DecodeError where
  /-- The code matches no row of the opcode table (R89). -/
  | undefinedCode (op : BitVec 16)
  /-- Fewer than the two bytes of an instruction are left (R80). -/
  | truncated
  deriving DecidableEq, Repr

/-- Bits 11 to 8: `nnnn`, or `mmmm` in layout `m` (R82). -/
def fieldHi (op : BitVec 16) : BitVec 4 := op.extractLsb' 8 4

/-- Bits 7 to 4: `mmmm`, or `nnnn` in layout `nd4` (R82). -/
def fieldLo (op : BitVec 16) : BitVec 4 := op.extractLsb' 4 4

/-- Bits 3 to 0: the 4-bit displacement or an operation code (R82). -/
def field4 (op : BitVec 16) : BitVec 4 := op.extractLsb' 0 4

/-- Bits 7 to 0: the immediate or the 8-bit displacement (R82). -/
def field8 (op : BitVec 16) : BitVec 8 := op.extractLsb' 0 8

/-- Bits 11 to 0: the 12-bit displacement (R82). -/
def field12 (op : BitVec 16) : BitVec 12 := op.extractLsb' 0 12

/-- Bits 15 to 12, by which R88 groups the codes. -/
def topNibble (op : BitVec 16) : BitVec 4 := op.extractLsb' 12 4

/-- Codes 0x00__ without operands; bits 11 to 8 must be 0 (R88, R89). -/
def decode0Zero (op : BitVec 16) : Option Instr :=
  match fieldHi op, field8 op with
  | 0x0#4, 0x08#8 => some (.clrt)
  | 0x0#4, 0x09#8 => some (.nop)
  | 0x0#4, 0x0B#8 => some (.rts)
  | 0x0#4, 0x18#8 => some (.sett)
  | 0x0#4, 0x19#8 => some (.div0u)
  | 0x0#4, 0x1B#8 => some (.sleep)
  | 0x0#4, 0x28#8 => some (.clrmac)
  | 0x0#4, 0x2B#8 => some (.rte)
  | _, _ => none

/-- Codes 0x0n__ with one register operand: bits 7 to 0 select the instruction (R88). -/
def decode0Reg (op : BitVec 16) : Option Instr :=
  match field8 op with
  | 0x02#8 => some (.stcSr (fieldHi op))
  | 0x0A#8 => some (.stsMach (fieldHi op))
  | 0x12#8 => some (.stcGbr (fieldHi op))
  | 0x1A#8 => some (.stsMacl (fieldHi op))
  | 0x22#8 => some (.stcVbr (fieldHi op))
  | 0x29#8 => some (.movt (fieldHi op))
  | 0x2A#8 => some (.stsPr (fieldHi op))
  | _ => decode0Zero op

/-- Codes 0x0___: bits 3 to 0 select the indexed moves, the others by bits 7 to 0 (R88). -/
def decode0 (op : BitVec 16) : Option Instr :=
  match field4 op with
  | 0x4#4 => some (.movbStoreIdx (fieldHi op) (fieldLo op))
  | 0x5#4 => some (.movwStoreIdx (fieldHi op) (fieldLo op))
  | 0x6#4 => some (.movlStoreIdx (fieldHi op) (fieldLo op))
  | 0xC#4 => some (.movbLoadIdx (fieldHi op) (fieldLo op))
  | 0xD#4 => some (.movwLoadIdx (fieldHi op) (fieldLo op))
  | 0xE#4 => some (.movlLoadIdx (fieldHi op) (fieldLo op))
  | _ => decode0Reg op

/-- Codes 0x2nm_: bits 3 to 0 select the instruction (R88). -/
def decode2 (op : BitVec 16) : Option Instr :=
  match field4 op with
  | 0x0#4 => some (.movbStore (fieldHi op) (fieldLo op))
  | 0x1#4 => some (.movwStore (fieldHi op) (fieldLo op))
  | 0x2#4 => some (.movlStore (fieldHi op) (fieldLo op))
  | 0x4#4 => some (.movbPreDec (fieldHi op) (fieldLo op))
  | 0x5#4 => some (.movwPreDec (fieldHi op) (fieldLo op))
  | 0x6#4 => some (.movlPreDec (fieldHi op) (fieldLo op))
  | 0x7#4 => some (.div0s (fieldHi op) (fieldLo op))
  | 0x8#4 => some (.tstReg (fieldHi op) (fieldLo op))
  | 0x9#4 => some (.andReg (fieldHi op) (fieldLo op))
  | 0xA#4 => some (.xorReg (fieldHi op) (fieldLo op))
  | 0xB#4 => some (.orReg (fieldHi op) (fieldLo op))
  | 0xC#4 => some (.cmpStr (fieldHi op) (fieldLo op))
  | 0xD#4 => some (.xtrct (fieldHi op) (fieldLo op))
  | 0xE#4 => some (.mulu (fieldHi op) (fieldLo op))
  | 0xF#4 => some (.muls (fieldHi op) (fieldLo op))
  | _ => none

/-- Codes 0x3nm_: bits 3 to 0 select the instruction (R88). -/
def decode3 (op : BitVec 16) : Option Instr :=
  match field4 op with
  | 0x0#4 => some (.cmpEq (fieldHi op) (fieldLo op))
  | 0x2#4 => some (.cmpHs (fieldHi op) (fieldLo op))
  | 0x3#4 => some (.cmpGe (fieldHi op) (fieldLo op))
  | 0x4#4 => some (.div1 (fieldHi op) (fieldLo op))
  | 0x6#4 => some (.cmpHi (fieldHi op) (fieldLo op))
  | 0x7#4 => some (.cmpGt (fieldHi op) (fieldLo op))
  | 0x8#4 => some (.sub (fieldHi op) (fieldLo op))
  | 0xA#4 => some (.subc (fieldHi op) (fieldLo op))
  | 0xB#4 => some (.subv (fieldHi op) (fieldLo op))
  | 0xC#4 => some (.add (fieldHi op) (fieldLo op))
  | 0xE#4 => some (.addc (fieldHi op) (fieldLo op))
  | 0xF#4 => some (.addv (fieldHi op) (fieldLo op))
  | _ => none

/-- Codes 0x4n__ other than MAC.W: bits 7 to 0 select the instruction (R88). -/
def decode4Sub (op : BitVec 16) : Option Instr :=
  match field8 op with
  | 0x00#8 => some (.shll (fieldHi op))
  | 0x01#8 => some (.shlr (fieldHi op))
  | 0x02#8 => some (.stslMach (fieldHi op))
  | 0x03#8 => some (.stclSr (fieldHi op))
  | 0x04#8 => some (.rotl (fieldHi op))
  | 0x05#8 => some (.rotr (fieldHi op))
  | 0x06#8 => some (.ldslMach (fieldHi op))
  | 0x07#8 => some (.ldclSr (fieldHi op))
  | 0x08#8 => some (.shll2 (fieldHi op))
  | 0x09#8 => some (.shlr2 (fieldHi op))
  | 0x0A#8 => some (.ldsMach (fieldHi op))
  | 0x0B#8 => some (.jsr (fieldHi op))
  | 0x0E#8 => some (.ldcSr (fieldHi op))
  | 0x11#8 => some (.cmpPz (fieldHi op))
  | 0x12#8 => some (.stslMacl (fieldHi op))
  | 0x13#8 => some (.stclGbr (fieldHi op))
  | 0x15#8 => some (.cmpPl (fieldHi op))
  | 0x16#8 => some (.ldslMacl (fieldHi op))
  | 0x17#8 => some (.ldclGbr (fieldHi op))
  | 0x18#8 => some (.shll8 (fieldHi op))
  | 0x19#8 => some (.shlr8 (fieldHi op))
  | 0x1A#8 => some (.ldsMacl (fieldHi op))
  | 0x1B#8 => some (.tasb (fieldHi op))
  | 0x1E#8 => some (.ldcGbr (fieldHi op))
  | 0x20#8 => some (.shal (fieldHi op))
  | 0x21#8 => some (.shar (fieldHi op))
  | 0x22#8 => some (.stslPr (fieldHi op))
  | 0x23#8 => some (.stclVbr (fieldHi op))
  | 0x24#8 => some (.rotcl (fieldHi op))
  | 0x25#8 => some (.rotcr (fieldHi op))
  | 0x26#8 => some (.ldslPr (fieldHi op))
  | 0x27#8 => some (.ldclVbr (fieldHi op))
  | 0x28#8 => some (.shll16 (fieldHi op))
  | 0x29#8 => some (.shlr16 (fieldHi op))
  | 0x2A#8 => some (.ldsPr (fieldHi op))
  | 0x2B#8 => some (.jmp (fieldHi op))
  | 0x2E#8 => some (.ldcVbr (fieldHi op))
  | _ => none

/-- Codes 0x4___: MAC.W for every code ending in 1111, the others by bits 7 to 0 (R88). -/
def decode4 (op : BitVec 16) : Option Instr :=
  match field4 op with
  | 0xF#4 => some (.macw (fieldHi op) (fieldLo op))
  | _ => decode4Sub op

/-- Codes 0x6nm_: bits 3 to 0 select the instruction (R88). -/
def decode6 (op : BitVec 16) : Option Instr :=
  match field4 op with
  | 0x0#4 => some (.movbLoad (fieldHi op) (fieldLo op))
  | 0x1#4 => some (.movwLoad (fieldHi op) (fieldLo op))
  | 0x2#4 => some (.movlLoad (fieldHi op) (fieldLo op))
  | 0x3#4 => some (.mov (fieldHi op) (fieldLo op))
  | 0x4#4 => some (.movbPostInc (fieldHi op) (fieldLo op))
  | 0x5#4 => some (.movwPostInc (fieldHi op) (fieldLo op))
  | 0x6#4 => some (.movlPostInc (fieldHi op) (fieldLo op))
  | 0x7#4 => some (.notReg (fieldHi op) (fieldLo op))
  | 0x8#4 => some (.swapb (fieldHi op) (fieldLo op))
  | 0x9#4 => some (.swapw (fieldHi op) (fieldLo op))
  | 0xA#4 => some (.negc (fieldHi op) (fieldLo op))
  | 0xB#4 => some (.neg (fieldHi op) (fieldLo op))
  | 0xC#4 => some (.extub (fieldHi op) (fieldLo op))
  | 0xD#4 => some (.extuw (fieldHi op) (fieldLo op))
  | 0xE#4 => some (.extsb (fieldHi op) (fieldLo op))
  | 0xF#4 => some (.extsw (fieldHi op) (fieldLo op))
  | _ => none

/-- Codes 0x8___: bits 11 to 8 select the instruction (R88). -/
def decode8 (op : BitVec 16) : Option Instr :=
  match fieldHi op with
  | 0x0#4 => some (.movbStoreDisp (fieldLo op) (field4 op))
  | 0x1#4 => some (.movwStoreDisp (fieldLo op) (field4 op))
  | 0x4#4 => some (.movbLoadDisp (fieldLo op) (field4 op))
  | 0x5#4 => some (.movwLoadDisp (fieldLo op) (field4 op))
  | 0x8#4 => some (.cmpEqImm (field8 op))
  | 0x9#4 => some (.bt (field8 op))
  | 0xB#4 => some (.bf (field8 op))
  | _ => none

/-- Codes 0xC___: bits 11 to 8 select the instruction (R88). -/
def decodeC (op : BitVec 16) : Option Instr :=
  match fieldHi op with
  | 0x0#4 => some (.movbStoreGbr (field8 op))
  | 0x1#4 => some (.movwStoreGbr (field8 op))
  | 0x2#4 => some (.movlStoreGbr (field8 op))
  | 0x3#4 => some (.trapa (field8 op))
  | 0x4#4 => some (.movbLoadGbr (field8 op))
  | 0x5#4 => some (.movwLoadGbr (field8 op))
  | 0x6#4 => some (.movlLoadGbr (field8 op))
  | 0x7#4 => some (.mova (field8 op))
  | 0x8#4 => some (.tstImm (field8 op))
  | 0x9#4 => some (.andImm (field8 op))
  | 0xA#4 => some (.xorImm (field8 op))
  | 0xB#4 => some (.orImm (field8 op))
  | 0xC#4 => some (.tstByte (field8 op))
  | 0xD#4 => some (.andByte (field8 op))
  | 0xE#4 => some (.xorByte (field8 op))
  | 0xF#4 => some (.orByte (field8 op))
  | _ => none

/-- The instruction of a 16-bit code, or none for an undefined code (R87, R88, R89). -/
def decode (op : BitVec 16) : Option Instr :=
  match topNibble op with
  | 0x0#4 => decode0 op
  | 0x1#4 => some (.movlStoreDisp (fieldHi op) (fieldLo op) (field4 op))
  | 0x2#4 => decode2 op
  | 0x3#4 => decode3 op
  | 0x4#4 => decode4 op
  | 0x5#4 => some (.movlLoadDisp (fieldHi op) (fieldLo op) (field4 op))
  | 0x6#4 => decode6 op
  | 0x7#4 => some (.addImm (fieldHi op) (field8 op))
  | 0x8#4 => decode8 op
  | 0x9#4 => some (.movwPc (fieldHi op) (field8 op))
  | 0xA#4 => some (.bra (field12 op))
  | 0xB#4 => some (.bsr (field12 op))
  | 0xC#4 => decodeC op
  | 0xD#4 => some (.movlPc (fieldHi op) (field8 op))
  | 0xE#4 => some (.movImm (fieldHi op) (field8 op))
  | _ => none

/-- Decode the instruction at the front of a sequence of bytes, the most significant byte of its code first (R81), and
give back the bytes after it. -/
def decodeBytes : List Byte → Except DecodeError (Instr × List Byte)
  | hi :: lo :: rest =>
    match decode (hi ++ lo) with
    | some i => .ok (i, rest)
    | none => .error (.undefinedCode (hi ++ lo))
  | _ => .error .truncated

/-- The two bytes of a code as memory stores them, lowest address first (R50, R81). -/
def codeBytes (op : BitVec 16) : List Byte := [op.extractLsb' 8 8, op.extractLsb' 0 8]

/-- The 16-bit code whose bits are w below nbits and 0 above. -/
def tableCode (nbits w : Nat) : BitVec 16 := BitVec.ofNat 16 (w % 2 ^ nbits)

/-- The instruction the decoder reads from the table word w of nbits bits, laid out as memory stores it. -/
def decodeTableWord (nbits w : Nat) : Option Instr :=
  match decodeBytes (codeBytes (tableCode nbits w)) with
  | .ok (i, _) => some i
  | .error _ => none

/-- The 16-bit code of an instruction, its pattern of spec/opcode_table.json written most significant bit first. -/
def encode : Instr → BitVec 16
  | .movImm n i => 0xE#4 ++ n ++ i
  | .movwPc n d => 0x9#4 ++ n ++ d
  | .movlPc n d => 0xD#4 ++ n ++ d
  | .mov n m => 0x6#4 ++ n ++ m ++ 0x3#4
  | .movbStore n m => 0x2#4 ++ n ++ m ++ 0x0#4
  | .movwStore n m => 0x2#4 ++ n ++ m ++ 0x1#4
  | .movlStore n m => 0x2#4 ++ n ++ m ++ 0x2#4
  | .movbLoad n m => 0x6#4 ++ n ++ m ++ 0x0#4
  | .movwLoad n m => 0x6#4 ++ n ++ m ++ 0x1#4
  | .movlLoad n m => 0x6#4 ++ n ++ m ++ 0x2#4
  | .movbPreDec n m => 0x2#4 ++ n ++ m ++ 0x4#4
  | .movwPreDec n m => 0x2#4 ++ n ++ m ++ 0x5#4
  | .movlPreDec n m => 0x2#4 ++ n ++ m ++ 0x6#4
  | .movbPostInc n m => 0x6#4 ++ n ++ m ++ 0x4#4
  | .movwPostInc n m => 0x6#4 ++ n ++ m ++ 0x5#4
  | .movlPostInc n m => 0x6#4 ++ n ++ m ++ 0x6#4
  | .movbStoreDisp n d => 0x8#4 ++ 0x0#4 ++ n ++ d
  | .movwStoreDisp n d => 0x8#4 ++ 0x1#4 ++ n ++ d
  | .movlStoreDisp n m d => 0x1#4 ++ n ++ m ++ d
  | .movbLoadDisp m d => 0x8#4 ++ 0x4#4 ++ m ++ d
  | .movwLoadDisp m d => 0x8#4 ++ 0x5#4 ++ m ++ d
  | .movlLoadDisp n m d => 0x5#4 ++ n ++ m ++ d
  | .movbStoreIdx n m => 0x0#4 ++ n ++ m ++ 0x4#4
  | .movwStoreIdx n m => 0x0#4 ++ n ++ m ++ 0x5#4
  | .movlStoreIdx n m => 0x0#4 ++ n ++ m ++ 0x6#4
  | .movbLoadIdx n m => 0x0#4 ++ n ++ m ++ 0xC#4
  | .movwLoadIdx n m => 0x0#4 ++ n ++ m ++ 0xD#4
  | .movlLoadIdx n m => 0x0#4 ++ n ++ m ++ 0xE#4
  | .movbStoreGbr d => 0xC#4 ++ 0x0#4 ++ d
  | .movwStoreGbr d => 0xC#4 ++ 0x1#4 ++ d
  | .movlStoreGbr d => 0xC#4 ++ 0x2#4 ++ d
  | .movbLoadGbr d => 0xC#4 ++ 0x4#4 ++ d
  | .movwLoadGbr d => 0xC#4 ++ 0x5#4 ++ d
  | .movlLoadGbr d => 0xC#4 ++ 0x6#4 ++ d
  | .mova d => 0xC#4 ++ 0x7#4 ++ d
  | .movt n => 0x0#4 ++ n ++ 0x2#4 ++ 0x9#4
  | .swapb n m => 0x6#4 ++ n ++ m ++ 0x8#4
  | .swapw n m => 0x6#4 ++ n ++ m ++ 0x9#4
  | .xtrct n m => 0x2#4 ++ n ++ m ++ 0xD#4
  | .add n m => 0x3#4 ++ n ++ m ++ 0xC#4
  | .addImm n i => 0x7#4 ++ n ++ i
  | .addc n m => 0x3#4 ++ n ++ m ++ 0xE#4
  | .addv n m => 0x3#4 ++ n ++ m ++ 0xF#4
  | .cmpEqImm i => 0x8#4 ++ 0x8#4 ++ i
  | .cmpEq n m => 0x3#4 ++ n ++ m ++ 0x0#4
  | .cmpHs n m => 0x3#4 ++ n ++ m ++ 0x2#4
  | .cmpGe n m => 0x3#4 ++ n ++ m ++ 0x3#4
  | .cmpHi n m => 0x3#4 ++ n ++ m ++ 0x6#4
  | .cmpGt n m => 0x3#4 ++ n ++ m ++ 0x7#4
  | .cmpPz n => 0x4#4 ++ n ++ 0x1#4 ++ 0x1#4
  | .cmpPl n => 0x4#4 ++ n ++ 0x1#4 ++ 0x5#4
  | .cmpStr n m => 0x2#4 ++ n ++ m ++ 0xC#4
  | .div1 n m => 0x3#4 ++ n ++ m ++ 0x4#4
  | .div0s n m => 0x2#4 ++ n ++ m ++ 0x7#4
  | .div0u => 0x0#4 ++ 0x0#4 ++ 0x1#4 ++ 0x9#4
  | .extsb n m => 0x6#4 ++ n ++ m ++ 0xE#4
  | .extsw n m => 0x6#4 ++ n ++ m ++ 0xF#4
  | .extub n m => 0x6#4 ++ n ++ m ++ 0xC#4
  | .extuw n m => 0x6#4 ++ n ++ m ++ 0xD#4
  | .macw n m => 0x4#4 ++ n ++ m ++ 0xF#4
  | .muls n m => 0x2#4 ++ n ++ m ++ 0xF#4
  | .mulu n m => 0x2#4 ++ n ++ m ++ 0xE#4
  | .neg n m => 0x6#4 ++ n ++ m ++ 0xB#4
  | .negc n m => 0x6#4 ++ n ++ m ++ 0xA#4
  | .sub n m => 0x3#4 ++ n ++ m ++ 0x8#4
  | .subc n m => 0x3#4 ++ n ++ m ++ 0xA#4
  | .subv n m => 0x3#4 ++ n ++ m ++ 0xB#4
  | .andReg n m => 0x2#4 ++ n ++ m ++ 0x9#4
  | .andImm i => 0xC#4 ++ 0x9#4 ++ i
  | .andByte i => 0xC#4 ++ 0xD#4 ++ i
  | .notReg n m => 0x6#4 ++ n ++ m ++ 0x7#4
  | .orReg n m => 0x2#4 ++ n ++ m ++ 0xB#4
  | .orImm i => 0xC#4 ++ 0xB#4 ++ i
  | .orByte i => 0xC#4 ++ 0xF#4 ++ i
  | .tasb n => 0x4#4 ++ n ++ 0x1#4 ++ 0xB#4
  | .tstReg n m => 0x2#4 ++ n ++ m ++ 0x8#4
  | .tstImm i => 0xC#4 ++ 0x8#4 ++ i
  | .tstByte i => 0xC#4 ++ 0xC#4 ++ i
  | .xorReg n m => 0x2#4 ++ n ++ m ++ 0xA#4
  | .xorImm i => 0xC#4 ++ 0xA#4 ++ i
  | .xorByte i => 0xC#4 ++ 0xE#4 ++ i
  | .rotl n => 0x4#4 ++ n ++ 0x0#4 ++ 0x4#4
  | .rotr n => 0x4#4 ++ n ++ 0x0#4 ++ 0x5#4
  | .rotcl n => 0x4#4 ++ n ++ 0x2#4 ++ 0x4#4
  | .rotcr n => 0x4#4 ++ n ++ 0x2#4 ++ 0x5#4
  | .shal n => 0x4#4 ++ n ++ 0x2#4 ++ 0x0#4
  | .shar n => 0x4#4 ++ n ++ 0x2#4 ++ 0x1#4
  | .shll n => 0x4#4 ++ n ++ 0x0#4 ++ 0x0#4
  | .shlr n => 0x4#4 ++ n ++ 0x0#4 ++ 0x1#4
  | .shll2 n => 0x4#4 ++ n ++ 0x0#4 ++ 0x8#4
  | .shlr2 n => 0x4#4 ++ n ++ 0x0#4 ++ 0x9#4
  | .shll8 n => 0x4#4 ++ n ++ 0x1#4 ++ 0x8#4
  | .shlr8 n => 0x4#4 ++ n ++ 0x1#4 ++ 0x9#4
  | .shll16 n => 0x4#4 ++ n ++ 0x2#4 ++ 0x8#4
  | .shlr16 n => 0x4#4 ++ n ++ 0x2#4 ++ 0x9#4
  | .bf d => 0x8#4 ++ 0xB#4 ++ d
  | .bt d => 0x8#4 ++ 0x9#4 ++ d
  | .bra d => 0xA#4 ++ d
  | .bsr d => 0xB#4 ++ d
  | .jmp m => 0x4#4 ++ m ++ 0x2#4 ++ 0xB#4
  | .jsr m => 0x4#4 ++ m ++ 0x0#4 ++ 0xB#4
  | .rts => 0x0#4 ++ 0x0#4 ++ 0x0#4 ++ 0xB#4
  | .clrt => 0x0#4 ++ 0x0#4 ++ 0x0#4 ++ 0x8#4
  | .clrmac => 0x0#4 ++ 0x0#4 ++ 0x2#4 ++ 0x8#4
  | .ldcSr m => 0x4#4 ++ m ++ 0x0#4 ++ 0xE#4
  | .ldcGbr m => 0x4#4 ++ m ++ 0x1#4 ++ 0xE#4
  | .ldcVbr m => 0x4#4 ++ m ++ 0x2#4 ++ 0xE#4
  | .ldclSr m => 0x4#4 ++ m ++ 0x0#4 ++ 0x7#4
  | .ldclGbr m => 0x4#4 ++ m ++ 0x1#4 ++ 0x7#4
  | .ldclVbr m => 0x4#4 ++ m ++ 0x2#4 ++ 0x7#4
  | .ldsMach m => 0x4#4 ++ m ++ 0x0#4 ++ 0xA#4
  | .ldsMacl m => 0x4#4 ++ m ++ 0x1#4 ++ 0xA#4
  | .ldsPr m => 0x4#4 ++ m ++ 0x2#4 ++ 0xA#4
  | .ldslMach m => 0x4#4 ++ m ++ 0x0#4 ++ 0x6#4
  | .ldslMacl m => 0x4#4 ++ m ++ 0x1#4 ++ 0x6#4
  | .ldslPr m => 0x4#4 ++ m ++ 0x2#4 ++ 0x6#4
  | .nop => 0x0#4 ++ 0x0#4 ++ 0x0#4 ++ 0x9#4
  | .rte => 0x0#4 ++ 0x0#4 ++ 0x2#4 ++ 0xB#4
  | .sett => 0x0#4 ++ 0x0#4 ++ 0x1#4 ++ 0x8#4
  | .sleep => 0x0#4 ++ 0x0#4 ++ 0x1#4 ++ 0xB#4
  | .stcSr n => 0x0#4 ++ n ++ 0x0#4 ++ 0x2#4
  | .stcGbr n => 0x0#4 ++ n ++ 0x1#4 ++ 0x2#4
  | .stcVbr n => 0x0#4 ++ n ++ 0x2#4 ++ 0x2#4
  | .stclSr n => 0x4#4 ++ n ++ 0x0#4 ++ 0x3#4
  | .stclGbr n => 0x4#4 ++ n ++ 0x1#4 ++ 0x3#4
  | .stclVbr n => 0x4#4 ++ n ++ 0x2#4 ++ 0x3#4
  | .stsMach n => 0x0#4 ++ n ++ 0x0#4 ++ 0xA#4
  | .stsMacl n => 0x0#4 ++ n ++ 0x1#4 ++ 0xA#4
  | .stsPr n => 0x0#4 ++ n ++ 0x2#4 ++ 0xA#4
  | .stslMach n => 0x4#4 ++ n ++ 0x0#4 ++ 0x2#4
  | .stslMacl n => 0x4#4 ++ n ++ 0x1#4 ++ 0x2#4
  | .stslPr n => 0x4#4 ++ n ++ 0x2#4 ++ 0x2#4
  | .trapa i => 0xC#4 ++ 0x3#4 ++ i

end Sys2Proof
end

