-- ==== Sys2Proof/Config.lean ====
section
/-! DEFINITION. What the spec fixes for the whole machine (spec/00_scope.md R7) and the default values of the parameters
it leaves to the model (R8; the third column of section 1 of spec/92_eei_decisions.md), from which `State.reset` is
built. The parameters ADDRESS_ERROR_VECTOR, ILLEGAL_INSTRUCTION_VECTOR and ILLEGAL_SLOT_VECTOR are open in the spec and
unused by it (R381): they have no default value, and State holds them. -/

namespace Sys2Proof.Config

/-- The size of the address space in bytes: "Architecture supports 4 Gbyte addresses" (R51). -/
def spaceSize : Nat := 4294967296

/-- R15 is the stack pointer of exception processing (R23). -/
def stackPointer : Reg := 15#4

/-- The default launch pc of LAUNCH (92_eei_decisions.md section 1). DESIGN CHOICE, unsafe: the source gives no reset
vector; log entry 3. -/
def launchPc : Word := 0x00001000#32

/-- The default launch value of R15 (92_eei_decisions.md section 1). DESIGN CHOICE, unsafe: log entry 3. -/
def launchSp : Word := 0x00FFFF00#32

/-- The default END_PC, also the default launch value of PR (92_eei_decisions.md section 1). DESIGN CHOICE, unsafe: log
entries 3 and 4. -/
def endPc : Word := 0x0F000000#32

/-- The interrupt mask after reset. PRESUMED, unsafe: the family's value (third column of R43's table); log entry 2. -/
def launchMask : BitVec 4 := 0b1111#4

/-- VBR after reset. PRESUMED, unsafe: the family's value (third column of R43's table); log entry 2. -/
def launchVbr : Word := 0#32

/-- What every register the spec gives no reset value for holds after reset. DESIGN CHOICE, unsafe: log entry 1. -/
def unstatedReset : Word := 0#32

end Sys2Proof.Config
end

