-- ==== Sys2Proof/Machine/State.lean ====
section
/-! DEFINITION. The state of the machine (spec/10_state.md), the reasons a step stops, and the state after reset. State
is plain data: it holds every register of R20, the model state of R40 and R41, memory (spec/20_memory.md) and the
parameters the spec leaves to the launcher (spec/00_scope.md R8). -/

namespace Sys2Proof.Machine

/-- The status register as its ten defined bits (R24): "The model can therefore keep SR as ten bits" (R25). The reserved
bits have no place here, so they cannot be written and always read 0. -/
structure StatusReg where
  /-- Bit 0: condition, carry, borrow, overflow. -/
  t : Bool
  /-- Bit 1: selects saturation in MAC.W. -/
  s : Bool
  /-- Bits 7 to 4: the interrupt mask, I3 most significant. -/
  i : BitVec 4
  /-- Bit 8: used by DIV0U, DIV0S and DIV1. -/
  q : Bool
  /-- Bit 9: used by DIV0U, DIV0S and DIV1. -/
  m : Bool
  deriving DecidableEq, Repr

/-- The run status of R41. Its fourth value, faulted(reason), is the outcome `fault` of a step, which has no next state
(R399); log entry 33. -/
inductive RunStatus where
  /-- Instructions execute. -/
  | running
  /-- After SLEEP (R346). -/
  | asleep
  /-- pc reached END_PC with no delayed branch pending (R428). -/
  | ended
  deriving DecidableEq, Repr

/-- What an address range of MEMMAP holds (R62, R66). -/
inductive RegionKind where
  /-- Backed by plain memory that may be written. -/
  | data
  /-- Program text: backed, readable, immutable, and the only place instructions are fetched from (R66). -/
  | text
  deriving DecidableEq, Repr

/-- One range of MEMMAP: `size` bytes from `base` (R62). An address that no range holds is not backed. -/
structure Region where
  base : Nat
  size : Nat
  kind : RegionKind
  deriving DecidableEq, Repr

/-- A pending interrupt request of INTERRUPT_MODEL (R395): a vector number and a level. Level 16 is a non-maskable
request. -/
structure IntRequest where
  vector : BitVec 8
  level : Fin 17
  deriving DecidableEq, Repr

/-- The kinds of memory access an address error records (R381). -/
inductive AccessKind where
  | read
  | write
  | fetch
  deriving DecidableEq, Repr

/-- Why the machine stops with a fault. The first four are the terminal faults of R381 and R399: no state changes. -/
inductive Fault where
  /-- R386. Raised by a word access to an odd address, a longword access to an address that is not a multiple of 4, or a
  fetch at an odd pc. Safe: the source calls it an error and describes no entry (log entry 10). -/
  | addressError (addr : Word) (kind : AccessKind) (bytes : Nat)
  /-- R387. Raised by the step when the fetched code matches no row of the opcode table. Safe (log entry 11). -/
  | illegalInstruction (op : BitVec 16) (pc : Word)
  /-- R388. Raised by one of the twelve forms of R292 in a delay slot. Safe (log entry 12). -/
  | illegalSlot (op : BitVec 16) (pc : Word)
  /-- R389. Raised by a read or a fetch of a memory byte that holds no value. Safe: no value is made up (log entry 5). -/
  | unwrittenRead (addr : Word)
  /-- R346. Raised by the step of a sleeping machine that no request may wake: a stuck state. Safe (log entry 15). -/
  | asleepForever
  /-- R428. Raised by the step of a machine whose run has ended: a stuck state, not an error. Safe (log entry 4). -/
  | runEnded
  deriving DecidableEq, Repr

/-- Why the model declines to say what a step does (R63). -/
inductive Refusal where
  /-- Raised by an arm of `exec` whose instruction has no meaning yet. Safe. -/
  | notModelled (mnemonic : String)
  /-- R63. Raised by a data access with a byte that MEMMAP does not back. Safe (log entry 25). -/
  | notBacked (addr : Word) (kind : AccessKind)
  /-- R63, R66. Raised by a store to a byte of program text. Safe (log entry 7). -/
  | storeToText (addr : Word)
  /-- R54, R66. Raised by a fetch outside program text. Safe (log entry 7). -/
  | fetchOutsideText (addr : Word)
  deriving DecidableEq, Repr

/-- The machine state. -/
structure State where
  /-- R0 to R15 (R21). -/
  regs : Vector Word 16
  /-- The status register (R24). -/
  sr : StatusReg
  /-- The global base register (R29). -/
  gbr : Word
  /-- The vector base register (R30). -/
  vbr : Word
  /-- The 10 bits of state of MACH (R33). -/
  mach : BitVec 10
  /-- The accumulator's low longword (R31). -/
  macl : Word
  /-- The procedure register (R35). -/
  pr : Word
  /-- The address of the instruction being executed (R38). -/
  pc : Word
  /-- The target of a pending delayed branch (R40). -/
  delay : Option Word
  /-- The run status (R41). -/
  status : RunStatus
  /-- The bytes of memory that hold a value, as (address, byte) pairs in the canonical form `Memory.wf`. -/
  mem : List Host.Cell
  /-- The parameter MEMMAP (R8, R62): no step changes it. -/
  memMap : List Region
  /-- The parameter END_PC (R8, R428): no step changes it. -/
  endPc : Word
  /-- The parameter INTERRUPT_MODEL (R8, R395): the requests pending, in the order in which they are looked at. -/
  interrupts : List IntRequest
  /-- The parameter ADDRESS_ERROR_VECTOR (R8, R381), `none` when the launcher supplies none. The spec leaves it open and the
  event terminal (R386): no step reads or changes it (log entry 13). -/
  addressErrorVector : Option (BitVec 8)
  /-- The parameter ILLEGAL_INSTRUCTION_VECTOR (R8, R381), open and unread likewise (R387; log entry 13). -/
  illegalInstructionVector : Option (BitVec 8)
  /-- The parameter ILLEGAL_SLOT_VECTOR (R8, R381), open and unread likewise (R388; log entry 13). -/
  illegalSlotVector : Option (BitVec 8)
  deriving DecidableEq, Repr

/-- What an operation answers: a value, a fault or a refusal. -/
abbrev Result (α : Type) := Host.Outcome α Fault Refusal

/-- The state after reset. The source gives no reset value of any register (R43) and the spec models no reset sequence
(R420): `delay` empty and status running are the model state of R43; pc, R15, PR and END_PC are the spec's default LAUNCH
(log entries 3 and 4); the interrupt mask and VBR are the family's (log entry 2); every other register is 0 (log entry 1);
no byte of memory holds a value (R421, log entry 5); the whole address space is backed and holds no program text (log
entry 6); no interrupt is pending (R395); no vector parameter is supplied (R381, log entry 13). -/
def State.reset : State where
  regs := (Vector.replicate 16 Config.unstatedReset).set 15 Config.launchSp
  sr := { t := false, s := false, i := Config.launchMask, q := false, m := false }
  gbr := Config.unstatedReset
  vbr := Config.launchVbr
  mach := 0#10
  macl := Config.unstatedReset
  pr := Config.endPc
  pc := Config.launchPc
  delay := none
  status := .running
  mem := []
  memMap := [{ base := 0, size := Config.spaceSize, kind := .data }]
  endPc := Config.endPc
  interrupts := []
  addressErrorVector := none
  illegalInstructionVector := none
  illegalSlotVector := none

end Sys2Proof.Machine
end

