-- ==== Sys2Proof/Machine/Flags.lean ====
section
/-! DEFINITION. The status register as a longword (R24, R25) and every flag computation of the spec: carry, borrow and
signed overflow (R181), the comparison conditions (R191 to R199), the division step (R200). Carry and overflow compare
the exact result with the range of a register. -/

namespace Sys2Proof.Machine

/-- SR read as a whole: the ten defined bits in their places, 0 in the reserved ones (R24, R25). -/
def StatusReg.toWord (r : StatusReg) : Word :=
  (BitVec.ofBool r.m).setWidth 32 <<< 9 ||| (BitVec.ofBool r.q).setWidth 32 <<< 8 ||| r.i.setWidth 32 <<< 4 |||
    (BitVec.ofBool r.s).setWidth 32 <<< 1 ||| (BitVec.ofBool r.t).setWidth 32

/-- SR written as a whole: the ten defined bits of v; the others are discarded, as `v & 0x000003F3` says (R25, R323). -/
def StatusReg.ofWord (v : Word) : StatusReg where
  t := v.getLsbD 0
  s := v.getLsbD 1
  i := v.extractLsb' 4 4
  q := v.getLsbD 8
  m := v.getLsbD 9

/-- The carry out of bit 31 of the exact sum x + y + c (R181, R189). -/
def addCarry (x y : Word) (c : Bool) : Bool := decide (2 ^ 32 ≤ x.toNat + y.toNat + c.toNat)

/-- The borrow of x - y - b: the exact difference is negative (R181, R211, R213). -/
def subBorrow (x y : Word) (b : Bool) : Bool := decide (x.toNat < y.toNat + b.toNat)

/-- Whether an exact result lies outside -2^31 to 2^31 - 1 (R181). -/
def outsideSigned (v : Int) : Bool := decide (v < -2147483648 ∨ 2147483647 < v)

/-- Signed overflow or underflow of x + y (R190). -/
def addOverflow (x y : Word) : Bool := outsideSigned (x.toInt + y.toInt)

/-- Signed overflow or underflow of x - y (R214). -/
def subOverflow (x y : Word) : Bool := outsideSigned (x.toInt - y.toInt)

/-- CMP/HS: x ≥ y as unsigned numbers (R193). -/
def unsignedGe (x y : Word) : Bool := decide (y.toNat ≤ x.toNat)

/-- CMP/HI: x > y as unsigned numbers (R195). -/
def unsignedGt (x y : Word) : Bool := decide (y.toNat < x.toNat)

/-- CMP/GE: x ≥ y as signed numbers (R194). -/
def signedGe (x y : Word) : Bool := decide (y.toInt ≤ x.toInt)

/-- CMP/GT: x > y as signed numbers (R196). -/
def signedGt (x y : Word) : Bool := decide (y.toInt < x.toInt)

/-- CMP/STR: some byte of x equals the byte of y in the same position (R199). -/
def someByteEqual (x y : Word) : Bool :=
  x.extractLsb' 24 8 == y.extractLsb' 24 8 || x.extractLsb' 16 8 == y.extractLsb' 16 8 ||
    x.extractLsb' 8 8 == y.extractLsb' 8 8 || x.extractLsb' 0 8 == y.extractLsb' 0 8

/-- What a one-step division leaves (R200). -/
structure DivStep where
  value : Word
  q : Bool
  t : Bool
  deriving DecidableEq, Repr

/-- The one-step division of R200 on the partial remainder r and the divisor d, with T, Q and M as `t`, `oldQ`, `m`: shift
T in and bit 31 out, subtract the divisor when Q = M and add it otherwise, and form Q and T from the bit shifted out, the
borrow or carry, and M. PRESUMED, unsafe: the family's definition, stated by the spec; log entry 23. -/
def divStep (r d : Word) (t oldQ m : Bool) : DivStep :=
  let out := r.msb
  let x := (r <<< 1) ||| (BitVec.ofBool t).setWidth 32
  let c := if oldQ = m then subBorrow x d false else addCarry x d false
  { value := if oldQ = m then x - d else x + d
    q := (out ^^ c) ^^ m
    t := !(out ^^ c) }

end Sys2Proof.Machine
end

