-- ==== Sys2Proof/Machine/Operands.lean ====
section
/-! DEFINITION. The operand forms (spec/30_encoding.md R84 to R101): extension and scaling of immediates and
displacements, and the effective address of every addressing mode. Address arithmetic is modulo 2^32 (R11; log entry
21). -/

namespace Sys2Proof.Machine

/-- `sext_8` (R11): bit 7 extended to 32 bits. -/
def sext8 (v : BitVec 8) : Word := v.signExtend 32

/-- `sext_16` (R11): bit 15 extended to 32 bits. -/
def sext16 (v : BitVec 16) : Word := v.signExtend 32

/-- `sext_10` (R33): how MACH is read. -/
def sext10 (v : BitVec 10) : Word := v.signExtend 32

/-- `sext_12` (R11): the displacement of BRA and BSR. -/
def sext12 (v : BitVec 12) : Word := v.signExtend 32

/-- Zero extension to 32 bits, `zext_N` (R11). -/
def zext {w : Nat} (v : BitVec w) : Word := v.setWidth 32

/-- The low 8 bits of a register (R53, R203). -/
def lowByte (v : Word) : Byte := v.extractLsb' 0 8

/-- The low 16 bits of a register (R53, R204). -/
def lowHalf (v : Word) : Half := v.extractLsb' 0 16

/-- The high 16 bits of a register. -/
def highHalf (v : Word) : Half := v.extractLsb' 16 16

/-- The contents of general register r (R21, R84). -/
def State.reg (s : State) (r : Reg) : Word := s.regs[r.toNat]'r.isLt

/-- Writing general register r (R21). -/
def State.setReg (s : State) (r : Reg) (v : Word) : State := { s with regs := s.regs.set r.toNat v r.isLt }

/-- PC4, "the PC contents" an instruction sees: pc + 4 (R11, R36). -/
def State.pc4 (s : State) : Word := s.pc + 4#32

/-- The base of a longword access relative to the PC: PC4 with its low two bits masked (R100). -/
def State.pc4Masked (s : State) : Word := s.pc4 &&& 0xFFFFFFFC#32

/-- `@(disp:4,Rn)`: the displacement zero-extended and scaled by the operand size (R86, R95). -/
def eaDisp (s : State) (r : Reg) (d : BitVec 4) (size : Word) : Word := s.reg r + zext d * size

/-- `@(R0,Rn)` (R96). -/
def eaIndexed (s : State) (r : Reg) : Word := s.reg 0#4 + s.reg r

/-- `@(disp:8,GBR)`: the displacement zero-extended and scaled by the operand size (R86, R97). -/
def eaGbr (s : State) (d : BitVec 8) (size : Word) : Word := s.gbr + zext d * size

/-- `@(R0,GBR)` (R98). -/
def eaGbrIndexed (s : State) : Word := s.gbr + s.reg 0#4

/-- `@(disp:8,PC)` of a word (R100, R122). -/
def eaPcWord (s : State) (d : BitVec 8) : Word := s.pc4 + zext d * 2#32

/-- `@(disp:8,PC)` of a longword, also the address MOVA computes (R100, R123, R155). -/
def eaPcLong (s : State) (d : BitVec 8) : Word := s.pc4Masked + zext d * 4#32

/-- The target of BF and BT (R99, R293). -/
def target8 (s : State) (d : BitVec 8) : Word := s.pc4 + sext8 d * 2#32

/-- The target of BRA and BSR (R99, R293). -/
def target12 (s : State) (d : BitVec 12) : Word := s.pc4 + sext12 d * 2#32

/-- The address of entry k of the vector table (R384): VBR + 4k; TRAPA's immediate "Zero-extended to 32 bits and
quadrupled" (R85). -/
def vectorAddress (s : State) (k : BitVec 8) : Word := s.vbr + zext k * 4#32

end Sys2Proof.Machine
end

