-- ==== Sys2Proof/Machine/Ops.lean ====
section
/-! DEFINITION. The shared operations every meaning is written over: memory in its canonical form, the access primitives of
spec/20_memory.md (R52 to R54), the ways the program counter moves (R290 item 8), the delay-slot check (R292), taking an
exception and returning from one (R383, R390), and accepting an interrupt (R395). A fault or a refusal carries no state, so
whatever an operation had computed before one is dropped: no instruction that stops changes anything (R399). -/

namespace Sys2Proof.Machine

/-- Run x, then f on its value; a fault or a refusal of x ends the instruction. -/
def Result.andThen {α β : Type} (x : Result α) (f : α → Result β) : Result β :=
  match x with
  | .next a => f a
  | .fault r => .fault r
  | .refused r => .refused r

/-! ### Memory -/

/-- What an address that memory does not list reads as: no value (R44, R389, R421). DESIGN CHOICE, safe: log entry 5. -/
def Memory.unlisted : Option Byte := none

/-- The byte that memory holds at an address, if it holds one. -/
def Memory.find (m : List Host.Cell) (a : Nat) : Option Byte :=
  match m with
  | [] => Memory.unlisted
  | c :: rest => if c.1 = a then some c.2 else Memory.find rest a

/-- Put an entry in front, unless the address reads so when it is not listed. -/
def Memory.entry (a : Nat) (v : Byte) (rest : List Host.Cell) : List Host.Cell :=
  if Memory.unlisted = some v then rest else (a, v) :: rest

/-- Write one byte, keeping the addresses strictly rising. -/
def Memory.put (m : List Host.Cell) (a : Nat) (v : Byte) : List Host.Cell :=
  match m with
  | [] => Memory.entry a v []
  | c :: rest =>
    if a < c.1 then Memory.entry a v (c :: rest)
    else if a = c.1 then Memory.entry a v rest
    else c :: Memory.put rest a v

/-- The canonical form of memory: addresses strictly rising and inside the address space, and no entry equal to what an
unlisted address reads as. -/
abbrev Memory.wf (m : List Host.Cell) : Prop :=
  m.Pairwise (fun c d => c.1 < d.1) ∧ ∀ c ∈ m, c.1 < Config.spaceSize ∧ Memory.unlisted ≠ some c.2

/-- The byte at an address, if it holds a value. -/
def State.byteAt (s : State) (a : Word) : Option Byte := Memory.find s.mem a.toNat

/-- Store one byte. -/
def State.putByte (s : State) (a : Word) (v : Byte) : State := { s with mem := Memory.put s.mem a.toNat v }

/-! ### MEMMAP -/

/-- Whether an address lies in a region (R62). -/
def Region.contains (r : Region) (a : Nat) : Bool := decide (r.base ≤ a) && decide (a < r.base + r.size)

/-- Whether MEMMAP backs the byte at an address (R62). -/
def State.backed (s : State) (a : Word) : Bool := s.memMap.any fun r => r.contains a.toNat

/-- Whether the byte at an address is program text (R66). -/
def State.isText (s : State) (a : Word) : Bool :=
  s.memMap.any fun r => decide (r.kind = .text) && r.contains a.toNat

/-! ### The access primitives -/

/-- The n addresses of an access, lowest first. -/
def span (a : Word) (n : Nat) : List Word := (List.range n).map fun k => a + BitVec.ofNat 32 k

/-- Step 1 of R52 and R53: an access of n bytes needs an address that is a multiple of n (R55). -/
def checkAligned (a : Word) (kind : AccessKind) (n : Nat) : Result Unit :=
  if a.toNat % n = 0 then .next () else .fault (.addressError a kind n)

/-- Step 2 of R52: MEMMAP backs every byte of the access, or the step is refused (R63). -/
def checkBacked (s : State) (a : Word) (kind : AccessKind) (n : Nat) : Result Unit :=
  if (span a n).all s.backed then .next () else .refused (.notBacked a kind)

/-- Step 2 of R53: no byte of a store is program text, or the step is refused (R63, R66). -/
def checkNotText (s : State) (a : Word) (n : Nat) : Result Unit :=
  if (span a n).any s.isText then .refused (.storeToText a) else .next ()

/-- The value of one byte, or UnwrittenRead (R52 step 3). -/
def loadByte (s : State) (a : Word) : Result Byte :=
  match s.byteAt a with
  | some v => .next v
  | none => .fault (.unwrittenRead a)

/-- The checks of a data read that come before its bytes (R52 steps 1 and 2). -/
def checkRead (s : State) (a : Word) (n : Nat) : Result Unit :=
  (checkAligned a .read n).andThen fun _ => checkBacked s a .read n

/-- The checks of a data write (R53 steps 1 and 2). -/
def checkWrite (s : State) (a : Word) (n : Nat) : Result Unit :=
  (checkAligned a .write n).andThen fun _ =>
    (checkBacked s a .write n).andThen fun _ => checkNotText s a n

/-- Two bytes at a, the byte at the lower address most significant (R50, R52 step 4). -/
def loadHalf (s : State) (a : Word) : Result Half :=
  (loadByte s a).andThen fun b0 => (loadByte s (a + 1#32)).andThen fun b1 => .next (b0 ++ b1)

/-- Four bytes at a, the byte at the lowest address most significant (R50, R52 step 4). -/
def loadLong (s : State) (a : Word) : Result Word :=
  (loadHalf s a).andThen fun h => (loadHalf s (a + 2#32)).andThen fun l => .next (h ++ l)

/-- MemRead(addr, 1) (R52). -/
def read8 (s : State) (a : Word) : Result Byte := (checkRead s a 1).andThen fun _ => loadByte s a

/-- MemRead(addr, 2) (R52). -/
def read16 (s : State) (a : Word) : Result Half := (checkRead s a 2).andThen fun _ => loadHalf s a

/-- MemRead(addr, 4) (R52). -/
def read32 (s : State) (a : Word) : Result Word := (checkRead s a 4).andThen fun _ => loadLong s a

/-- Two bytes stored at a, the most significant at the lower address (R50, R53 step 3). -/
def State.putHalf (s : State) (a : Word) (v : Half) : State :=
  (s.putByte a (v.extractLsb' 8 8)).putByte (a + 1#32) (v.extractLsb' 0 8)

/-- Four bytes stored at a, the most significant at the lowest address (R50, R53 step 3). -/
def State.putLong (s : State) (a : Word) (v : Word) : State :=
  (s.putHalf a (v.extractLsb' 16 16)).putHalf (a + 2#32) (v.extractLsb' 0 16)

/-- MemWrite(addr, 1, v) (R53). -/
def write8 (s : State) (a : Word) (v : Byte) : Result State := (checkWrite s a 1).andThen fun _ => .next (s.putByte a v)

/-- MemWrite(addr, 2, v) (R53). -/
def write16 (s : State) (a : Word) (v : Half) : Result State := (checkWrite s a 2).andThen fun _ => .next (s.putHalf a v)

/-- MemWrite(addr, 4, v) (R53). -/
def write32 (s : State) (a : Word) (v : Word) : Result State := (checkWrite s a 4).andThen fun _ => .next (s.putLong a v)

/-- The instruction fetch at pc (R54): an odd pc is an address error, a fetch outside program text is refused, bytes that
hold no value fault. The order is that of R392. -/
def fetch (s : State) : Result Half :=
  (checkAligned s.pc .fetch 2).andThen fun _ =>
    if (span s.pc 2).all s.isText then loadHalf s s.pc else .refused (.fetchOutsideText s.pc)

/-! ### The program counter -/

/-- The end of an instruction that is not a taken branch (R290 item 8): in a delay slot pc takes the pending target,
otherwise it moves to the next instruction. -/
def State.advance (s : State) : State :=
  match s.delay with
  | some target => { s with pc := target, delay := none }
  | none => { s with pc := s.pc + 2#32 }

/-- The end of a delayed branch (R290 item 8): the target waits for the delay slot instruction. -/
def State.branchDelayed (s : State) (target : Word) : State := { s with delay := some target, pc := s.pc + 2#32 }

/-- The end of a branch without a delay slot (R290 item 8). -/
def State.branchNow (s : State) (target : Word) : State := { s with pc := target }

/-- An instruction that completes without a branch. -/
def done (s : State) : Result State := .next s.advance

/-- R290 item 5: one of the twelve forms of R292 with a delayed branch pending is IllegalSlot (R388), before any of its
effects. -/
def outsideSlot (i : Instr) (s : State) (k : Result State) : Result State :=
  match s.delay with
  | none => k
  | some _ => .fault (.illegalSlot (encode i) s.pc)

/-! ### Shapes of instructions -/

/-- Write a register and complete. -/
def doneReg (s : State) (n : Reg) (v : Word) : Result State := done (s.setReg n v)

/-- Replace the status register and complete. -/
def doneSr (s : State) (r : StatusReg) : Result State := done { s with sr := r }

/-- Set the T bit and complete. -/
def doneT (s : State) (t : Bool) : Result State := doneSr s { s.sr with t := t }

/-- Write a register and the T bit and complete. -/
def doneRegT (s : State) (n : Reg) (v : Word) (t : Bool) : Result State := doneT (s.setReg n v) t

/-- Load a byte, sign-extended, into a register (R70). -/
def doLoad8 (s : State) (a : Word) (n : Reg) : Result State := (read8 s a).andThen fun v => doneReg s n (sext8 v)

/-- Load a word, sign-extended, into a register (R70). -/
def doLoad16 (s : State) (a : Word) (n : Reg) : Result State := (read16 s a).andThen fun v => doneReg s n (sext16 v)

/-- Load a longword into a register. -/
def doLoad32 (s : State) (a : Word) (n : Reg) : Result State := (read32 s a).andThen fun v => doneReg s n v

/-- Store a byte. -/
def doStore8 (s : State) (a : Word) (v : Byte) : Result State := (write8 s a v).andThen done

/-- Store a word. -/
def doStore16 (s : State) (a : Word) (v : Half) : Result State := (write16 s a v).andThen done

/-- Store a longword. -/
def doStore32 (s : State) (a : Word) (v : Word) : Result State := (write32 s a v).andThen done

/-- Pop a longword at @Rm+: read it, then R[m] <- R[m] + 4 (R93, R325). -/
def popLong (s : State) (m : Reg) (k : State → Word → Result State) : Result State :=
  (read32 s (s.reg m)).andThen fun v => k (s.setReg m (s.reg m + 4#32)) v

/-- Push a longword at @-Rn: write it at R[n] - 4, then R[n] <- R[n] - 4 (R94, R325). -/
def pushLong (s : State) (n : Reg) (v : Word) : Result State :=
  (write32 s (s.reg n - 4#32) v).andThen fun s' => doneReg s' n (s.reg n - 4#32)

/-- Read a byte, write it back changed, same address (R231). -/
def modifyByte (s : State) (a : Word) (f : Byte → Byte) : Result State :=
  (read8 s a).andThen fun b => doStore8 s a (f b)

/-! ### Exceptions -/

/-- Taking an exception, the one entry the source describes (R383, R384, R359): SR is written at R15 - 4, the return
address at R15 - 8, R15 becomes R15 - 8, and pc takes the handler address that the vector table holds for the vector
number, read after the two writes. Nothing else is saved and SR is not changed (log entry 20). -/
def enterException (s : State) (returnPc : Word) (vector : BitVec 8) : Result State :=
  let sp := s.reg Config.stackPointer
  (write32 s (sp - 4#32) s.sr.toWord).andThen fun s1 =>
    (write32 s1 (sp - 8#32) returnPc).andThen fun s2 =>
      (read32 s2 (vectorAddress s vector)).andThen fun target =>
        .next ((s2.setReg Config.stackPointer (sp - 8#32)).branchNow target)

/-- Returning from an exception (R344, R390): pc and SR are popped from the stack, both read before any write, and the
return is a delayed branch to the popped pc under the restored SR (log entry 19). -/
def returnFromException (s : State) : Result State :=
  let sp := s.reg Config.stackPointer
  (read32 s sp).andThen fun newPc =>
    (read32 s (sp + 4#32)).andThen fun newSr =>
      .next ({ s.setReg Config.stackPointer (sp + 8#32) with sr := StatusReg.ofWord newSr }.branchDelayed newPc)

/-! ### Interrupts (R395; log entry 14) -/

/-- A request is accepted only if its level is greater than the interrupt mask. -/
def IntRequest.exceeds (r : IntRequest) (mask : BitVec 4) : Bool := decide (mask.toNat < r.level.val)

/-- The interrupt mask that acceptance of a request sets: its level, and 1111 for a non-maskable request. -/
def IntRequest.mask (r : IntRequest) : BitVec 4 := if 15 < r.level.val then 0b1111#4 else BitVec.ofNat 4 r.level.val

/-- The request that the machine accepts at this point, if any: the first pending one that exceeds the mask, and none
between a delayed branch and its delay slot instruction. -/
def State.acceptable (s : State) : Option IntRequest :=
  match s.delay with
  | some _ => none
  | none => s.interrupts.find? fun r => r.exceeds s.sr.i

/-- Accepting a request: the frame of R383 with the address of the next instruction to execute, the mask raised, the
machine running, and the request no longer pending. -/
def acceptInterrupt (s : State) (r : IntRequest) : Result State :=
  (enterException s s.pc r.vector).andThen fun s' =>
    .next { s' with sr := { s'.sr with i := r.mask }, status := .running, interrupts := s'.interrupts.erase r }

/-- R290 item 1 and R428: the run ends when pc is END_PC and no delayed branch is pending. -/
def State.atEnd (s : State) : Bool := decide (s.pc = s.endPc) && s.delay.isNone

end Sys2Proof.Machine
end

