-- ==== Sys2Proof/Machine/Arithmetic.lean ====
section
/-! DEFINITION. The meanings of the 28 arithmetic instructions (spec/41_arithmetic.md R187 to R214). Every instruction
reads its operands before it writes (R180, log entry 29). -/

namespace Sys2Proof.Machine

/-- ADD Rm,Rn (R187). -/
def execAdd (n m : Reg) (s : State) : Result State := doneReg s n (s.reg n + s.reg m)

/-- ADD #imm,Rn (R188). -/
def execAddImm (n : Reg) (i : BitVec 8) (s : State) : Result State := doneReg s n (s.reg n + sext8 i)

/-- ADDC Rm,Rn (R189). -/
def execAddc (n m : Reg) (s : State) : Result State :=
  doneRegT s n (s.reg n + s.reg m + zext (BitVec.ofBool s.sr.t)) (addCarry (s.reg n) (s.reg m) s.sr.t)

/-- ADDV Rm,Rn (R190). -/
def execAddv (n m : Reg) (s : State) : Result State :=
  doneRegT s n (s.reg n + s.reg m) (addOverflow (s.reg n) (s.reg m))

/-- CMP/EQ #imm,R0 (R191). -/
def execCmpEqImm (i : BitVec 8) (s : State) : Result State := doneT s (s.reg 0#4 == sext8 i)

/-- CMP/EQ Rm,Rn (R192). -/
def execCmpEq (n m : Reg) (s : State) : Result State := doneT s (s.reg n == s.reg m)

/-- CMP/HS Rm,Rn (R193). -/
def execCmpHs (n m : Reg) (s : State) : Result State := doneT s (unsignedGe (s.reg n) (s.reg m))

/-- CMP/GE Rm,Rn (R194). -/
def execCmpGe (n m : Reg) (s : State) : Result State := doneT s (signedGe (s.reg n) (s.reg m))

/-- CMP/HI Rm,Rn (R195). -/
def execCmpHi (n m : Reg) (s : State) : Result State := doneT s (unsignedGt (s.reg n) (s.reg m))

/-- CMP/GT Rm,Rn (R196). -/
def execCmpGt (n m : Reg) (s : State) : Result State := doneT s (signedGt (s.reg n) (s.reg m))

/-- CMP/PZ Rn (R197). -/
def execCmpPz (n : Reg) (s : State) : Result State := doneT s (signedGe (s.reg n) 0#32)

/-- CMP/PL Rn (R198). -/
def execCmpPl (n : Reg) (s : State) : Result State := doneT s (signedGt (s.reg n) 0#32)

/-- CMP/STR Rm,Rn (R199). -/
def execCmpStr (n m : Reg) (s : State) : Result State := doneT s (someByteEqual (s.reg n) (s.reg m))

/-- DIV1 Rm,Rn (R200; log entry 23). -/
def execDiv1 (n m : Reg) (s : State) : Result State :=
  let r := divStep (s.reg n) (s.reg m) s.sr.t s.sr.q s.sr.m
  doneSr (s.setReg n r.value) { s.sr with q := r.q, t := r.t }

/-- DIV0S Rm,Rn (R201). -/
def execDiv0s (n m : Reg) (s : State) : Result State :=
  doneSr s { s.sr with q := (s.reg n).msb, m := (s.reg m).msb, t := (s.reg m).msb ^^ (s.reg n).msb }

/-- DIV0U (R202). -/
def execDiv0u (s : State) : Result State := doneSr s { s.sr with q := false, m := false, t := false }

/-- EXTS.B Rm,Rn (R203). -/
def execExtsb (n m : Reg) (s : State) : Result State := doneReg s n (sext8 (lowByte (s.reg m)))

/-- EXTS.W Rm,Rn (R204). -/
def execExtsw (n m : Reg) (s : State) : Result State := doneReg s n (sext16 (lowHalf (s.reg m)))

/-- EXTU.B Rm,Rn (R205). -/
def execExtub (n m : Reg) (s : State) : Result State := doneReg s n (zext (lowByte (s.reg m)))

/-- EXTU.W Rm,Rn (R206). -/
def execExtuw (n m : Reg) (s : State) : Result State := doneReg s n (zext (lowHalf (s.reg m)))

/-- The accumulator after adding the exact product p (R207). With S = 0 the 42-bit sum wraps; with S = 1 MACL saturates at
32 bits, and MACH's bit 0 records an overflow or underflow, its other bits kept (log entry 16). -/
def accumulate (s : State) (p : Int) : State :=
  if s.sr.s then
    let r := s.macl.toInt + p
    if 2147483647 < r then { s with macl := 0x7FFFFFFF#32, mach := s.mach ||| 1#10 }
    else if r < -2147483648 then { s with macl := 0x80000000#32, mach := s.mach ||| 1#10 }
    else { s with macl := BitVec.ofInt 32 r }
  else
    let r : BitVec 42 := (s.mach ++ s.macl) + BitVec.ofInt 42 p
    { s with mach := r.extractLsb' 32 10, macl := r.extractLsb' 0 32 }

/-- MAC.W @Rm+,@Rn+ (R207): the word at Rn is read first and Rn incremented, then the word at Rm, which is the updated
register when m = n (log entry 16). -/
def execMacw (n m : Reg) (s : State) : Result State :=
  (read16 s (s.reg n)).andThen fun a =>
    let s1 := s.setReg n (s.reg n + 2#32)
    (read16 s1 (s1.reg m)).andThen fun b =>
      done (accumulate (s1.setReg m (s1.reg m + 2#32)) (a.toInt * b.toInt))

/-- MULS Rm,Rn (R208): MACH is not written (log entry 22). -/
def execMuls (n m : Reg) (s : State) : Result State :=
  done { s with macl := BitVec.ofInt 32 ((lowHalf (s.reg n)).toInt * (lowHalf (s.reg m)).toInt) }

/-- MULU Rm,Rn (R209): MACH is not written (log entry 22). -/
def execMulu (n m : Reg) (s : State) : Result State :=
  done { s with macl := BitVec.ofNat 32 ((lowHalf (s.reg n)).toNat * (lowHalf (s.reg m)).toNat) }

/-- NEG Rm,Rn (R210). -/
def execNeg (n m : Reg) (s : State) : Result State := doneReg s n (0#32 - s.reg m)

/-- NEGC Rm,Rn (R211). -/
def execNegc (n m : Reg) (s : State) : Result State :=
  doneRegT s n (0#32 - s.reg m - zext (BitVec.ofBool s.sr.t)) (subBorrow 0#32 (s.reg m) s.sr.t)

/-- SUB Rm,Rn (R212). -/
def execSub (n m : Reg) (s : State) : Result State := doneReg s n (s.reg n - s.reg m)

/-- SUBC Rm,Rn (R213). -/
def execSubc (n m : Reg) (s : State) : Result State :=
  doneRegT s n (s.reg n - s.reg m - zext (BitVec.ofBool s.sr.t)) (subBorrow (s.reg n) (s.reg m) s.sr.t)

/-- SUBV Rm,Rn (R214). -/
def execSubv (n m : Reg) (s : State) : Result State :=
  doneRegT s n (s.reg n - s.reg m) (subOverflow (s.reg n) (s.reg m))

end Sys2Proof.Machine
end

