-- ==== Sys2Proof/Machine/Branch.lean ====
section
/-! DEFINITION. The meanings of the seven branch instructions (spec/44_branch.md R295 to R301). All are forbidden in a
delay slot (R292). A delayed branch fixes its target, and BSR and JSR fix PR, when it executes itself (R291, log entry
19). -/

namespace Sys2Proof.Machine

/-- BF label (R295): no delay slot. -/
def execBf (d : BitVec 8) (s : State) : Result State :=
  outsideSlot (.bf d) s (if s.sr.t then done s else .next (s.branchNow (target8 s d)))

/-- BT label (R296): no delay slot. -/
def execBt (d : BitVec 8) (s : State) : Result State :=
  outsideSlot (.bt d) s (if s.sr.t then .next (s.branchNow (target8 s d)) else done s)

/-- BRA label (R297). -/
def execBra (d : BitVec 12) (s : State) : Result State :=
  outsideSlot (.bra d) s (.next (s.branchDelayed (target12 s d)))

/-- BSR label (R298). -/
def execBsr (d : BitVec 12) (s : State) : Result State :=
  outsideSlot (.bsr d) s (.next ({ s with pr := s.pc4 }.branchDelayed (target12 s d)))

/-- JMP @Rm (R299): the register is the target, memory is not read. -/
def execJmp (m : Reg) (s : State) : Result State := outsideSlot (.jmp m) s (.next (s.branchDelayed (s.reg m)))

/-- JSR @Rm (R300). -/
def execJsr (m : Reg) (s : State) : Result State :=
  outsideSlot (.jsr m) s (.next ({ s with pr := s.pc4 }.branchDelayed (s.reg m)))

/-- RTS (R301). -/
def execRts (s : State) : Result State := outsideSlot .rts s (.next (s.branchDelayed s.pr))

end Sys2Proof.Machine
end

