-- ==== Sys2Proof/Machine/DataTransfer.lean ====
section
/-! DEFINITION. The meanings of the 39 data transfer instructions (spec/40_data_transfer.md R121 to R159). None changes a
bit of SR (R120). -/

namespace Sys2Proof.Machine

/-- MOV #imm,Rn (R121). -/
def execMovImm (n : Reg) (i : BitVec 8) (s : State) : Result State := doneReg s n (sext8 i)

/-- MOV.W @(disp,PC),Rn (R122). -/
def execMovwPc (n : Reg) (d : BitVec 8) (s : State) : Result State :=
  outsideSlot (.movwPc n d) s (doLoad16 s (eaPcWord s d) n)

/-- MOV.L @(disp,PC),Rn (R123). -/
def execMovlPc (n : Reg) (d : BitVec 8) (s : State) : Result State :=
  outsideSlot (.movlPc n d) s (doLoad32 s (eaPcLong s d) n)

/-- MOV Rm,Rn (R124). -/
def execMov (n m : Reg) (s : State) : Result State := doneReg s n (s.reg m)

/-- MOV.B Rm,@Rn (R125). -/
def execMovbStore (n m : Reg) (s : State) : Result State := doStore8 s (s.reg n) (lowByte (s.reg m))

/-- MOV.W Rm,@Rn (R126). -/
def execMovwStore (n m : Reg) (s : State) : Result State := doStore16 s (s.reg n) (lowHalf (s.reg m))

/-- MOV.L Rm,@Rn (R127). -/
def execMovlStore (n m : Reg) (s : State) : Result State := doStore32 s (s.reg n) (s.reg m)

/-- MOV.B @Rm,Rn (R128). -/
def execMovbLoad (n m : Reg) (s : State) : Result State := doLoad8 s (s.reg m) n

/-- MOV.W @Rm,Rn (R129). -/
def execMovwLoad (n m : Reg) (s : State) : Result State := doLoad16 s (s.reg m) n

/-- MOV.L @Rm,Rn (R130). -/
def execMovlLoad (n m : Reg) (s : State) : Result State := doLoad32 s (s.reg m) n

/-- MOV.B Rm,@-Rn (R131): the data are read before the decrement (log entry 18). -/
def execMovbPreDec (n m : Reg) (s : State) : Result State :=
  (write8 s (s.reg n - 1#32) (lowByte (s.reg m))).andThen fun s' => doneReg s' n (s.reg n - 1#32)

/-- MOV.W Rm,@-Rn (R132): the data are read before the decrement (log entry 18). -/
def execMovwPreDec (n m : Reg) (s : State) : Result State :=
  (write16 s (s.reg n - 2#32) (lowHalf (s.reg m))).andThen fun s' => doneReg s' n (s.reg n - 2#32)

/-- MOV.L Rm,@-Rn (R133): the data are read before the decrement (log entry 18). -/
def execMovlPreDec (n m : Reg) (s : State) : Result State := pushLong s n (s.reg m)

/-- MOV.B @Rm+,Rn (R134): with n = m the loaded value is what remains (log entry 17). -/
def execMovbPostInc (n m : Reg) (s : State) : Result State :=
  (read8 s (s.reg m)).andThen fun v => doneReg (s.setReg m (s.reg m + 1#32)) n (sext8 v)

/-- MOV.W @Rm+,Rn (R135): with n = m the loaded value is what remains (log entry 17). -/
def execMovwPostInc (n m : Reg) (s : State) : Result State :=
  (read16 s (s.reg m)).andThen fun v => doneReg (s.setReg m (s.reg m + 2#32)) n (sext16 v)

/-- MOV.L @Rm+,Rn (R136): with n = m the loaded value is what remains (log entry 17). -/
def execMovlPostInc (n m : Reg) (s : State) : Result State := popLong s m fun s' v => doneReg s' n v

/-- MOV.B R0,@(disp,Rn) (R137). -/
def execMovbStoreDisp (n : Reg) (d : BitVec 4) (s : State) : Result State :=
  doStore8 s (eaDisp s n d 1#32) (lowByte (s.reg 0#4))

/-- MOV.W R0,@(disp,Rn) (R138). -/
def execMovwStoreDisp (n : Reg) (d : BitVec 4) (s : State) : Result State :=
  doStore16 s (eaDisp s n d 2#32) (lowHalf (s.reg 0#4))

/-- MOV.L Rm,@(disp,Rn) (R139). -/
def execMovlStoreDisp (n m : Reg) (d : BitVec 4) (s : State) : Result State := doStore32 s (eaDisp s n d 4#32) (s.reg m)

/-- MOV.B @(disp,Rm),R0 (R140). -/
def execMovbLoadDisp (m : Reg) (d : BitVec 4) (s : State) : Result State := doLoad8 s (eaDisp s m d 1#32) 0#4

/-- MOV.W @(disp,Rm),R0 (R141). -/
def execMovwLoadDisp (m : Reg) (d : BitVec 4) (s : State) : Result State := doLoad16 s (eaDisp s m d 2#32) 0#4

/-- MOV.L @(disp,Rm),Rn (R142). -/
def execMovlLoadDisp (n m : Reg) (d : BitVec 4) (s : State) : Result State := doLoad32 s (eaDisp s m d 4#32) n

/-- MOV.B Rm,@(R0,Rn) (R143). -/
def execMovbStoreIdx (n m : Reg) (s : State) : Result State := doStore8 s (eaIndexed s n) (lowByte (s.reg m))

/-- MOV.W Rm,@(R0,Rn) (R144). -/
def execMovwStoreIdx (n m : Reg) (s : State) : Result State := doStore16 s (eaIndexed s n) (lowHalf (s.reg m))

/-- MOV.L Rm,@(R0,Rn) (R145). -/
def execMovlStoreIdx (n m : Reg) (s : State) : Result State := doStore32 s (eaIndexed s n) (s.reg m)

/-- MOV.B @(R0,Rm),Rn (R146). -/
def execMovbLoadIdx (n m : Reg) (s : State) : Result State := doLoad8 s (eaIndexed s m) n

/-- MOV.W @(R0,Rm),Rn (R147). -/
def execMovwLoadIdx (n m : Reg) (s : State) : Result State := doLoad16 s (eaIndexed s m) n

/-- MOV.L @(R0,Rm),Rn (R148). -/
def execMovlLoadIdx (n m : Reg) (s : State) : Result State := doLoad32 s (eaIndexed s m) n

/-- MOV.B R0,@(disp,GBR) (R149). -/
def execMovbStoreGbr (d : BitVec 8) (s : State) : Result State := doStore8 s (eaGbr s d 1#32) (lowByte (s.reg 0#4))

/-- MOV.W R0,@(disp,GBR) (R150). -/
def execMovwStoreGbr (d : BitVec 8) (s : State) : Result State := doStore16 s (eaGbr s d 2#32) (lowHalf (s.reg 0#4))

/-- MOV.L R0,@(disp,GBR) (R151). -/
def execMovlStoreGbr (d : BitVec 8) (s : State) : Result State := doStore32 s (eaGbr s d 4#32) (s.reg 0#4)

/-- MOV.B @(disp,GBR),R0 (R152). -/
def execMovbLoadGbr (d : BitVec 8) (s : State) : Result State := doLoad8 s (eaGbr s d 1#32) 0#4

/-- MOV.W @(disp,GBR),R0 (R153). -/
def execMovwLoadGbr (d : BitVec 8) (s : State) : Result State := doLoad16 s (eaGbr s d 2#32) 0#4

/-- MOV.L @(disp,GBR),R0 (R154). -/
def execMovlLoadGbr (d : BitVec 8) (s : State) : Result State := doLoad32 s (eaGbr s d 4#32) 0#4

/-- MOVA @(disp,PC),R0 (R155): the address, no memory access. -/
def execMova (d : BitVec 8) (s : State) : Result State := outsideSlot (.mova d) s (doneReg s 0#4 (eaPcLong s d))

/-- MOVT Rn (R156). -/
def execMovt (n : Reg) (s : State) : Result State := doneReg s n (zext (BitVec.ofBool s.sr.t))

/-- SWAP.B Rm,Rn (R157): the bytes of the low half exchanged. -/
def execSwapb (n m : Reg) (s : State) : Result State :=
  doneReg s n (highHalf (s.reg m) ++ (s.reg m).extractLsb' 0 8 ++ (s.reg m).extractLsb' 8 8)

/-- SWAP.W Rm,Rn (R158): the halves exchanged. -/
def execSwapw (n m : Reg) (s : State) : Result State := doneReg s n (lowHalf (s.reg m) ++ highHalf (s.reg m))

/-- XTRCT Rm,Rn (R159): the middle 32 bits of Rm:Rn. -/
def execXtrct (n m : Reg) (s : State) : Result State := doneReg s n (lowHalf (s.reg m) ++ highHalf (s.reg n))

end Sys2Proof.Machine
end

