-- ==== Sys2Proof/Machine/Logic.lean ====
section
/-! DEFINITION. The meanings of the 14 logic instructions (spec/42_logic.md R233 to R246). The immediate is zero-extended
against R0 and used as it is against a byte of memory (R71, R230). -/

namespace Sys2Proof.Machine

/-- AND Rm,Rn (R233). -/
def execAndReg (n m : Reg) (s : State) : Result State := doneReg s n (s.reg n &&& s.reg m)

/-- AND #imm,R0 (R234). -/
def execAndImm (i : BitVec 8) (s : State) : Result State := doneReg s 0#4 (s.reg 0#4 &&& zext i)

/-- AND.B #imm,@(R0,GBR) (R235). -/
def execAndByte (i : BitVec 8) (s : State) : Result State := modifyByte s (eaGbrIndexed s) fun b => b &&& i

/-- NOT Rm,Rn (R236). -/
def execNotReg (n m : Reg) (s : State) : Result State := doneReg s n (~~~(s.reg m))

/-- OR Rm,Rn (R237). -/
def execOrReg (n m : Reg) (s : State) : Result State := doneReg s n (s.reg n ||| s.reg m)

/-- OR #imm,R0 (R238). -/
def execOrImm (i : BitVec 8) (s : State) : Result State := doneReg s 0#4 (s.reg 0#4 ||| zext i)

/-- OR.B #imm,@(R0,GBR) (R239). -/
def execOrByte (i : BitVec 8) (s : State) : Result State := modifyByte s (eaGbrIndexed s) fun b => b ||| i

/-- TAS.B @Rn (R240): T is the test of the byte as read; the byte is written back with bit 7 set, in one indivisible
operation (log entry 24). -/
def execTasb (n : Reg) (s : State) : Result State :=
  (read8 s (s.reg n)).andThen fun b =>
    (write8 s (s.reg n) (b ||| 0x80#8)).andThen fun s' => doneT s' (b == 0#8)

/-- TST Rm,Rn (R241). -/
def execTstReg (n m : Reg) (s : State) : Result State := doneT s (s.reg n &&& s.reg m == 0#32)

/-- TST #imm,R0 (R242). -/
def execTstImm (i : BitVec 8) (s : State) : Result State := doneT s (s.reg 0#4 &&& zext i == 0#32)

/-- TST.B #imm,@(R0,GBR) (R243): memory is not written. -/
def execTstByte (i : BitVec 8) (s : State) : Result State :=
  (read8 s (eaGbrIndexed s)).andThen fun b => doneT s (b &&& i == 0#8)

/-- XOR Rm,Rn (R244). -/
def execXorReg (n m : Reg) (s : State) : Result State := doneReg s n (s.reg n ^^^ s.reg m)

/-- XOR #imm,R0 (R245). -/
def execXorImm (i : BitVec 8) (s : State) : Result State := doneReg s 0#4 (s.reg 0#4 ^^^ zext i)

/-- XOR.B #imm,@(R0,GBR) (R246). -/
def execXorByte (i : BitVec 8) (s : State) : Result State := modifyByte s (eaGbrIndexed s) fun b => b ^^^ i

end Sys2Proof.Machine
end

