-- ==== Sys2Proof/Machine/Shift.lean ====
section
/-! DEFINITION. The meanings of the 14 shift instructions (spec/43_shift.md R262 to R275). The one-bit forms put the bit
shifted or rotated out in T; the others leave T alone (R260). -/

namespace Sys2Proof.Machine

/-- ROTL Rn (R262). -/
def execRotl (n : Reg) (s : State) : Result State :=
  doneRegT s n ((s.reg n <<< 1) ||| zext (BitVec.ofBool (s.reg n).msb)) (s.reg n).msb

/-- ROTR Rn (R263). -/
def execRotr (n : Reg) (s : State) : Result State :=
  doneRegT s n ((s.reg n >>> 1) ||| (zext (BitVec.ofBool ((s.reg n).getLsbD 0)) <<< 31)) ((s.reg n).getLsbD 0)

/-- ROTCL Rn (R264): T:Rn rotated left as 33 bits. -/
def execRotcl (n : Reg) (s : State) : Result State :=
  doneRegT s n ((s.reg n <<< 1) ||| zext (BitVec.ofBool s.sr.t)) (s.reg n).msb

/-- ROTCR Rn (R265): Rn:T rotated right as 33 bits. -/
def execRotcr (n : Reg) (s : State) : Result State :=
  doneRegT s n ((s.reg n >>> 1) ||| (zext (BitVec.ofBool s.sr.t) <<< 31)) ((s.reg n).getLsbD 0)

/-- SHAL Rn (R266). -/
def execShal (n : Reg) (s : State) : Result State := doneRegT s n (s.reg n <<< 1) (s.reg n).msb

/-- SHAR Rn (R267). -/
def execShar (n : Reg) (s : State) : Result State :=
  doneRegT s n ((s.reg n >>> 1) ||| (s.reg n &&& 0x80000000#32)) ((s.reg n).getLsbD 0)

/-- SHLL Rn (R268). -/
def execShll (n : Reg) (s : State) : Result State := doneRegT s n (s.reg n <<< 1) (s.reg n).msb

/-- SHLR Rn (R269). -/
def execShlr (n : Reg) (s : State) : Result State := doneRegT s n (s.reg n >>> 1) ((s.reg n).getLsbD 0)

/-- SHLL2 Rn (R270). -/
def execShll2 (n : Reg) (s : State) : Result State := doneReg s n (s.reg n <<< 2)

/-- SHLR2 Rn (R271). -/
def execShlr2 (n : Reg) (s : State) : Result State := doneReg s n (s.reg n >>> 2)

/-- SHLL8 Rn (R272). -/
def execShll8 (n : Reg) (s : State) : Result State := doneReg s n (s.reg n <<< 8)

/-- SHLR8 Rn (R273). -/
def execShlr8 (n : Reg) (s : State) : Result State := doneReg s n (s.reg n >>> 8)

/-- SHLL16 Rn (R274). -/
def execShll16 (n : Reg) (s : State) : Result State := doneReg s n (s.reg n <<< 16)

/-- SHLR16 Rn (R275). -/
def execShlr16 (n : Reg) (s : State) : Result State := doneReg s n (s.reg n >>> 16)

end Sys2Proof.Machine
end

