-- ==== Sys2Proof/Machine/SystemControl.lean ====
section
/-! DEFINITION. The meanings of the 31 system control instructions (spec/45_system_control.md R329 to R359). There are no
privilege modes: every program may execute each of them (R320, log entry 27). -/

namespace Sys2Proof.Machine

/-- CLRT (R329). -/
def execClrt (s : State) : Result State := doneT s false

/-- CLRMAC (R330). -/
def execClrmac (s : State) : Result State := done { s with mach := 0#10, macl := 0#32 }

/-- LDC Rm,SR (R331). -/
def execLdcSr (m : Reg) (s : State) : Result State := doneSr s (StatusReg.ofWord (s.reg m))

/-- LDC Rm,GBR (R332). -/
def execLdcGbr (m : Reg) (s : State) : Result State := done { s with gbr := s.reg m }

/-- LDC Rm,VBR (R333). -/
def execLdcVbr (m : Reg) (s : State) : Result State := done { s with vbr := s.reg m }

/-- LDC.L @Rm+,SR (R334). -/
def execLdclSr (m : Reg) (s : State) : Result State := popLong s m fun s' v => doneSr s' (StatusReg.ofWord v)

/-- LDC.L @Rm+,GBR (R335). -/
def execLdclGbr (m : Reg) (s : State) : Result State := popLong s m fun s' v => done { s' with gbr := v }

/-- LDC.L @Rm+,VBR (R336). -/
def execLdclVbr (m : Reg) (s : State) : Result State := popLong s m fun s' v => done { s' with vbr := v }

/-- LDS Rm,MACH (R337): the low 10 bits. -/
def execLdsMach (m : Reg) (s : State) : Result State := done { s with mach := (s.reg m).extractLsb' 0 10 }

/-- LDS Rm,MACL (R338). -/
def execLdsMacl (m : Reg) (s : State) : Result State := done { s with macl := s.reg m }

/-- LDS Rm,PR (R339). -/
def execLdsPr (m : Reg) (s : State) : Result State := done { s with pr := s.reg m }

/-- LDS.L @Rm+,MACH (R340): the low 10 bits. -/
def execLdslMach (m : Reg) (s : State) : Result State :=
  popLong s m fun s' v => done { s' with mach := v.extractLsb' 0 10 }

/-- LDS.L @Rm+,MACL (R341). -/
def execLdslMacl (m : Reg) (s : State) : Result State := popLong s m fun s' v => done { s' with macl := v }

/-- LDS.L @Rm+,PR (R342). -/
def execLdslPr (m : Reg) (s : State) : Result State := popLong s m fun s' v => done { s' with pr := v }

/-- NOP (R343). -/
def execNop (s : State) : Result State := done s

/-- RTE (R344). -/
def execRte (s : State) : Result State := outsideSlot .rte s (returnFromException s)

/-- SETT (R345). -/
def execSett (s : State) : Result State := doneT s true

/-- SLEEP (R346): pc moves on, then the machine waits asleep (log entry 15). -/
def execSleep (s : State) : Result State := .next { s.advance with status := .asleep }

/-- STC SR,Rn (R347). -/
def execStcSr (n : Reg) (s : State) : Result State := doneReg s n s.sr.toWord

/-- STC GBR,Rn (R348). -/
def execStcGbr (n : Reg) (s : State) : Result State := doneReg s n s.gbr

/-- STC VBR,Rn (R349). -/
def execStcVbr (n : Reg) (s : State) : Result State := doneReg s n s.vbr

/-- STC.L SR,@-Rn (R350). -/
def execStclSr (n : Reg) (s : State) : Result State := pushLong s n s.sr.toWord

/-- STC.L GBR,@-Rn (R351). -/
def execStclGbr (n : Reg) (s : State) : Result State := pushLong s n s.gbr

/-- STC.L VBR,@-Rn (R352). -/
def execStclVbr (n : Reg) (s : State) : Result State := pushLong s n s.vbr

/-- STS MACH,Rn (R353): the 10 bits sign-extended. -/
def execStsMach (n : Reg) (s : State) : Result State := doneReg s n (sext10 s.mach)

/-- STS MACL,Rn (R354). -/
def execStsMacl (n : Reg) (s : State) : Result State := doneReg s n s.macl

/-- STS PR,Rn (R355). -/
def execStsPr (n : Reg) (s : State) : Result State := doneReg s n s.pr

/-- STS.L MACH,@-Rn (R356): the 10 bits sign-extended. -/
def execStslMach (n : Reg) (s : State) : Result State := pushLong s n (sext10 s.mach)

/-- STS.L MACL,@-Rn (R357). -/
def execStslMacl (n : Reg) (s : State) : Result State := pushLong s n s.macl

/-- STS.L PR,@-Rn (R358). -/
def execStslPr (n : Reg) (s : State) : Result State := pushLong s n s.pr

/-- TRAPA #imm (R359): the exception entry with the address of the next instruction, no delay slot. -/
def execTrapa (i : BitVec 8) (s : State) : Result State :=
  outsideSlot (.trapa i) s (enterException s (s.pc + 2#32) i)

end Sys2Proof.Machine
end

