-- ==== Sys2Proof/Machine/Dispatch.lean ====
section
/-! DEFINITION. One arm per instruction, each one direct call of its meaning. -/

namespace Sys2Proof.Machine

def exec (i : Instr) (s : State) : Host.Outcome State Fault Refusal :=
  match i with
  -- Data transfer instructions
  | .movImm n imm => Sys2Proof.Machine.execMovImm n imm s
  | .movwPc n d => Sys2Proof.Machine.execMovwPc n d s
  | .movlPc n d => Sys2Proof.Machine.execMovlPc n d s
  | .mov n m => Sys2Proof.Machine.execMov n m s
  | .movbStore n m => Sys2Proof.Machine.execMovbStore n m s
  | .movwStore n m => Sys2Proof.Machine.execMovwStore n m s
  | .movlStore n m => Sys2Proof.Machine.execMovlStore n m s
  | .movbLoad n m => Sys2Proof.Machine.execMovbLoad n m s
  | .movwLoad n m => Sys2Proof.Machine.execMovwLoad n m s
  | .movlLoad n m => Sys2Proof.Machine.execMovlLoad n m s
  | .movbPreDec n m => Sys2Proof.Machine.execMovbPreDec n m s
  | .movwPreDec n m => Sys2Proof.Machine.execMovwPreDec n m s
  | .movlPreDec n m => Sys2Proof.Machine.execMovlPreDec n m s
  | .movbPostInc n m => Sys2Proof.Machine.execMovbPostInc n m s
  | .movwPostInc n m => Sys2Proof.Machine.execMovwPostInc n m s
  | .movlPostInc n m => Sys2Proof.Machine.execMovlPostInc n m s
  | .movbStoreDisp n d => Sys2Proof.Machine.execMovbStoreDisp n d s
  | .movwStoreDisp n d => Sys2Proof.Machine.execMovwStoreDisp n d s
  | .movlStoreDisp n m d => Sys2Proof.Machine.execMovlStoreDisp n m d s
  | .movbLoadDisp m d => Sys2Proof.Machine.execMovbLoadDisp m d s
  | .movwLoadDisp m d => Sys2Proof.Machine.execMovwLoadDisp m d s
  | .movlLoadDisp n m d => Sys2Proof.Machine.execMovlLoadDisp n m d s
  | .movbStoreIdx n m => Sys2Proof.Machine.execMovbStoreIdx n m s
  | .movwStoreIdx n m => Sys2Proof.Machine.execMovwStoreIdx n m s
  | .movlStoreIdx n m => Sys2Proof.Machine.execMovlStoreIdx n m s
  | .movbLoadIdx n m => Sys2Proof.Machine.execMovbLoadIdx n m s
  | .movwLoadIdx n m => Sys2Proof.Machine.execMovwLoadIdx n m s
  | .movlLoadIdx n m => Sys2Proof.Machine.execMovlLoadIdx n m s
  | .movbStoreGbr d => Sys2Proof.Machine.execMovbStoreGbr d s
  | .movwStoreGbr d => Sys2Proof.Machine.execMovwStoreGbr d s
  | .movlStoreGbr d => Sys2Proof.Machine.execMovlStoreGbr d s
  | .movbLoadGbr d => Sys2Proof.Machine.execMovbLoadGbr d s
  | .movwLoadGbr d => Sys2Proof.Machine.execMovwLoadGbr d s
  | .movlLoadGbr d => Sys2Proof.Machine.execMovlLoadGbr d s
  | .mova d => Sys2Proof.Machine.execMova d s
  | .movt n => Sys2Proof.Machine.execMovt n s
  | .swapb n m => Sys2Proof.Machine.execSwapb n m s
  | .swapw n m => Sys2Proof.Machine.execSwapw n m s
  | .xtrct n m => Sys2Proof.Machine.execXtrct n m s
  -- Arithmetic instructions
  | .add n m => Sys2Proof.Machine.execAdd n m s
  | .addImm n imm => Sys2Proof.Machine.execAddImm n imm s
  | .addc n m => Sys2Proof.Machine.execAddc n m s
  | .addv n m => Sys2Proof.Machine.execAddv n m s
  | .cmpEqImm imm => Sys2Proof.Machine.execCmpEqImm imm s
  | .cmpEq n m => Sys2Proof.Machine.execCmpEq n m s
  | .cmpHs n m => Sys2Proof.Machine.execCmpHs n m s
  | .cmpGe n m => Sys2Proof.Machine.execCmpGe n m s
  | .cmpHi n m => Sys2Proof.Machine.execCmpHi n m s
  | .cmpGt n m => Sys2Proof.Machine.execCmpGt n m s
  | .cmpPz n => Sys2Proof.Machine.execCmpPz n s
  | .cmpPl n => Sys2Proof.Machine.execCmpPl n s
  | .cmpStr n m => Sys2Proof.Machine.execCmpStr n m s
  | .div1 n m => Sys2Proof.Machine.execDiv1 n m s
  | .div0s n m => Sys2Proof.Machine.execDiv0s n m s
  | .div0u => Sys2Proof.Machine.execDiv0u s
  | .extsb n m => Sys2Proof.Machine.execExtsb n m s
  | .extsw n m => Sys2Proof.Machine.execExtsw n m s
  | .extub n m => Sys2Proof.Machine.execExtub n m s
  | .extuw n m => Sys2Proof.Machine.execExtuw n m s
  | .macw n m => Sys2Proof.Machine.execMacw n m s
  | .muls n m => Sys2Proof.Machine.execMuls n m s
  | .mulu n m => Sys2Proof.Machine.execMulu n m s
  | .neg n m => Sys2Proof.Machine.execNeg n m s
  | .negc n m => Sys2Proof.Machine.execNegc n m s
  | .sub n m => Sys2Proof.Machine.execSub n m s
  | .subc n m => Sys2Proof.Machine.execSubc n m s
  | .subv n m => Sys2Proof.Machine.execSubv n m s
  -- Logic instructions
  | .andReg n m => Sys2Proof.Machine.execAndReg n m s
  | .andImm imm => Sys2Proof.Machine.execAndImm imm s
  | .andByte imm => Sys2Proof.Machine.execAndByte imm s
  | .notReg n m => Sys2Proof.Machine.execNotReg n m s
  | .orReg n m => Sys2Proof.Machine.execOrReg n m s
  | .orImm imm => Sys2Proof.Machine.execOrImm imm s
  | .orByte imm => Sys2Proof.Machine.execOrByte imm s
  | .tasb n => Sys2Proof.Machine.execTasb n s
  | .tstReg n m => Sys2Proof.Machine.execTstReg n m s
  | .tstImm imm => Sys2Proof.Machine.execTstImm imm s
  | .tstByte imm => Sys2Proof.Machine.execTstByte imm s
  | .xorReg n m => Sys2Proof.Machine.execXorReg n m s
  | .xorImm imm => Sys2Proof.Machine.execXorImm imm s
  | .xorByte imm => Sys2Proof.Machine.execXorByte imm s
  -- Shift instructions
  | .rotl n => Sys2Proof.Machine.execRotl n s
  | .rotr n => Sys2Proof.Machine.execRotr n s
  | .rotcl n => Sys2Proof.Machine.execRotcl n s
  | .rotcr n => Sys2Proof.Machine.execRotcr n s
  | .shal n => Sys2Proof.Machine.execShal n s
  | .shar n => Sys2Proof.Machine.execShar n s
  | .shll n => Sys2Proof.Machine.execShll n s
  | .shlr n => Sys2Proof.Machine.execShlr n s
  | .shll2 n => Sys2Proof.Machine.execShll2 n s
  | .shlr2 n => Sys2Proof.Machine.execShlr2 n s
  | .shll8 n => Sys2Proof.Machine.execShll8 n s
  | .shlr8 n => Sys2Proof.Machine.execShlr8 n s
  | .shll16 n => Sys2Proof.Machine.execShll16 n s
  | .shlr16 n => Sys2Proof.Machine.execShlr16 n s
  -- Branch instructions
  | .bf d => Sys2Proof.Machine.execBf d s
  | .bt d => Sys2Proof.Machine.execBt d s
  | .bra d => Sys2Proof.Machine.execBra d s
  | .bsr d => Sys2Proof.Machine.execBsr d s
  | .jmp m => Sys2Proof.Machine.execJmp m s
  | .jsr m => Sys2Proof.Machine.execJsr m s
  | .rts => Sys2Proof.Machine.execRts s
  -- System control instructions
  | .clrt => Sys2Proof.Machine.execClrt s
  | .clrmac => Sys2Proof.Machine.execClrmac s
  | .ldcSr m => Sys2Proof.Machine.execLdcSr m s
  | .ldcGbr m => Sys2Proof.Machine.execLdcGbr m s
  | .ldcVbr m => Sys2Proof.Machine.execLdcVbr m s
  | .ldclSr m => Sys2Proof.Machine.execLdclSr m s
  | .ldclGbr m => Sys2Proof.Machine.execLdclGbr m s
  | .ldclVbr m => Sys2Proof.Machine.execLdclVbr m s
  | .ldsMach m => Sys2Proof.Machine.execLdsMach m s
  | .ldsMacl m => Sys2Proof.Machine.execLdsMacl m s
  | .ldsPr m => Sys2Proof.Machine.execLdsPr m s
  | .ldslMach m => Sys2Proof.Machine.execLdslMach m s
  | .ldslMacl m => Sys2Proof.Machine.execLdslMacl m s
  | .ldslPr m => Sys2Proof.Machine.execLdslPr m s
  | .nop => Sys2Proof.Machine.execNop s
  | .rte => Sys2Proof.Machine.execRte s
  | .sett => Sys2Proof.Machine.execSett s
  | .sleep => Sys2Proof.Machine.execSleep s
  | .stcSr n => Sys2Proof.Machine.execStcSr n s
  | .stcGbr n => Sys2Proof.Machine.execStcGbr n s
  | .stcVbr n => Sys2Proof.Machine.execStcVbr n s
  | .stclSr n => Sys2Proof.Machine.execStclSr n s
  | .stclGbr n => Sys2Proof.Machine.execStclGbr n s
  | .stclVbr n => Sys2Proof.Machine.execStclVbr n s
  | .stsMach n => Sys2Proof.Machine.execStsMach n s
  | .stsMacl n => Sys2Proof.Machine.execStsMacl n s
  | .stsPr n => Sys2Proof.Machine.execStsPr n s
  | .stslMach n => Sys2Proof.Machine.execStslMach n s
  | .stslMacl n => Sys2Proof.Machine.execStslMacl n s
  | .stslPr n => Sys2Proof.Machine.execStslPr n s
  | .trapa imm => Sys2Proof.Machine.execTrapa imm s

end Sys2Proof.Machine
end

