-- ==== Sys2Proof/Machine/Step.lean ====
section
/-! DEFINITION. One step of the machine (spec/44_branch.md R290), in the order of checks of R392, and how a program's next
instruction is placed from outside (log entry 8). -/

namespace Sys2Proof.Machine

/-- R290 items 3 to 8: fetch, decode, execute. A code that matches no row is IllegalInstruction (R387). -/
def stepInstruction (s : State) : Result State :=
  (fetch s).andThen fun op =>
    match decode op with
    | some i => exec i s
    | none => .fault (.illegalInstruction op s.pc)

/-- One step. A running machine first sees whether its run has ended (R428), then whether it accepts an interrupt (R395),
and otherwise executes one instruction. A sleeping machine only accepts an interrupt (R346). A machine whose run has
ended has no step (R41). -/
def step (s : State) : Host.Outcome State Fault Refusal :=
  match s.status with
  | .ended => .fault .runEnded
  | .asleep =>
    match s.acceptable with
    | some r => acceptInterrupt s r
    | none => .fault .asleepForever
  | .running =>
    if s.atEnd then .next { s with status := .ended }
    else
      match s.acceptable with
      | some r => acceptInterrupt s r
      | none => stepInstruction s

/-- The state with the instruction code of the table word w placed at pc: its two bytes, most significant first, and the
program text region that the fetch needs (R54, R66). This stands for the launcher's loading of a program (R421, log entry
8). -/
def State.withFetchWord (s : State) (nbits w : Nat) : State :=
  { s.putHalf s.pc (tableCode nbits w) with
    memMap := { base := s.pc.toNat, size := 2, kind := .text } :: s.memMap }

end Sys2Proof.Machine
end

