-- ==== Sys2Proof/Safety.lean ====
section
/-! DEFINITION. The terms claims are stated in: what a run may assume of a launch state (R421), what memory holds at an
address, what an access needs, and what an instruction leaves unchanged (its frame). Nothing here is used by the step. -/

namespace Sys2Proof.Machine

/-! ### Safe states -/

/-- What R421 asks of a launch state: pc even and inside the program text, no delayed branch pending, running. -/
abbrev State.launchable (s : State) : Prop :=
  s.pc.toNat % 2 = 0 ∧ s.isText s.pc = true ∧ s.delay = none ∧ s.status = .running

/-- The invariant of every state: memory in its canonical form. -/
abbrev State.Inv (s : State) : Prop := Memory.wf s.mem

/-- The step of s executes the instruction at pc: s is running, its run is not at its end (R428), and no interrupt is
accepted at this point (R395). -/
abbrev State.Executes (s : State) : Prop :=
  s.status = .running ∧ (s.pc ≠ s.endPc ∨ s.delay ≠ none) ∧
    (s.delay ≠ none ∨ ∀ r ∈ s.interrupts, r.level.val ≤ s.sr.i.toNat)

/-! ### Who may write what -/

/-- The instructions that write T (R26). -/
def writesT : Instr → Bool
  | .addc _ _ | .addv _ _ | .cmpEqImm _ | .cmpEq _ _ | .cmpHs _ _ | .cmpGe _ _ | .cmpHi _ _ | .cmpGt _ _ => true
  | .cmpPz _ | .cmpPl _ | .cmpStr _ _ | .div1 _ _ | .div0s _ _ | .div0u | .negc _ _ | .subc _ _ | .subv _ _ => true
  | .tasb _ | .tstReg _ _ | .tstImm _ | .tstByte _ | .rotl _ | .rotr _ | .rotcl _ | .rotcr _ => true
  | .shal _ | .shar _ | .shll _ | .shlr _ | .clrt | .sett | .ldcSr _ | .ldclSr _ | .rte => true
  | _ => false

/-- The instructions that write SR as a whole (R25): the only ones that write S and the interrupt mask (R27, R28). -/
def writesWholeSr : Instr → Bool
  | .ldcSr _ | .ldclSr _ | .rte => true
  | _ => false

/-- The division instructions, which with the whole-SR writes are the only ones that write Q and M (R27). -/
def isDivision : Instr → Bool
  | .div0s _ _ | .div0u | .div1 _ _ => true
  | _ => false

/-- The instructions that write GBR (R29). -/
def writesGbr : Instr → Bool
  | .ldcGbr _ | .ldclGbr _ => true
  | _ => false

/-- The instructions that write VBR (R30). -/
def writesVbr : Instr → Bool
  | .ldcVbr _ | .ldclVbr _ => true
  | _ => false

/-- The instructions that write PR (R35). -/
def writesPr : Instr → Bool
  | .bsr _ | .jsr _ | .ldsPr _ | .ldslPr _ => true
  | _ => false

/-- The instructions that write MACL (R31). -/
def writesMacl : Instr → Bool
  | .muls _ _ | .mulu _ _ | .macw _ _ | .clrmac | .ldsMacl _ | .ldslMacl _ => true
  | _ => false

/-- The instructions that write MACH (R34). -/
def writesMach : Instr → Bool
  | .macw _ _ | .clrmac | .ldsMach _ | .ldslMach _ => true
  | _ => false

/-- The instructions that read or write MACH or MACL (R31, R33, R34). -/
def usesMac : Instr → Bool
  | .muls _ _ | .mulu _ _ | .macw _ _ | .clrmac | .ldsMacl _ | .ldslMacl _ | .ldsMach _ | .ldslMach _ => true
  | .stsMach _ | .stsMacl _ | .stslMach _ | .stslMacl _ => true
  | _ => false

/-- The instructions that write pc other than by sequential advance (R290 item 8). -/
def changesFlow : Instr → Bool
  | .bra _ | .bsr _ | .jmp _ | .jsr _ | .rts | .rte | .bf _ | .bt _ | .trapa _ => true
  | _ => false

/-! ### Memory -/

/-- The byte at a holds v. -/
abbrev HoldsByte (s : State) (a : Word) (v : Byte) : Prop := s.byteAt a = some v

/-- The two bytes at a hold v, most significant first (R50). -/
abbrev HoldsHalf (s : State) (a : Word) (v : Half) : Prop :=
  HoldsByte s a (v.extractLsb' 8 8) ∧ HoldsByte s (a + 1#32) (v.extractLsb' 0 8)

/-- The four bytes at a hold v, most significant first (R50). -/
abbrev HoldsLong (s : State) (a : Word) (v : Word) : Prop :=
  HoldsByte s a (v.extractLsb' 24 8) ∧ HoldsByte s (a + 1#32) (v.extractLsb' 16 8) ∧
    HoldsByte s (a + 2#32) (v.extractLsb' 8 8) ∧ HoldsByte s (a + 3#32) (v.extractLsb' 0 8)

/-- The n bytes from a are backed by MEMMAP (R62). -/
abbrev Backed (s : State) (a : Word) (n : Nat) : Prop := (span a n).all s.backed = true

/-- An aligned, backed access of n bytes (R52 steps 1 and 2). -/
abbrev Reachable (s : State) (a : Word) (n : Nat) : Prop := a.toNat % n = 0 ∧ Backed s a n

/-- An aligned access of n backed bytes, none of them program text (R53 steps 1 and 2). -/
abbrev Storable (s : State) (a : Word) (n : Nat) : Prop := Reachable s a n ∧ (span a n).any s.isText = false

/-- MemRead(a, 1) gives v (R52). -/
abbrev ReadsByte (s : State) (a : Word) (v : Byte) : Prop := Reachable s a 1 ∧ HoldsByte s a v

/-- MemRead(a, 2) gives v (R52). -/
abbrev ReadsHalf (s : State) (a : Word) (v : Half) : Prop := Reachable s a 2 ∧ HoldsHalf s a v

/-- MemRead(a, 4) gives v (R52). -/
abbrev ReadsLong (s : State) (a : Word) (v : Word) : Prop := Reachable s a 4 ∧ HoldsLong s a v

/-- The longword that the vector table gives an exception entry whose frame is pushed below `sp` (R359: the entry is read
after the two writes, so an entry inside the frame reads what was pushed there). -/
abbrev VectorReads (s : State) (va sp sr returnPc target : Word) : Prop :=
  if va = sp - 4#32 then target = sr
  else if va = sp - 8#32 then target = returnPc
  else ReadsLong s va target

/-! ### Frames -/

/-- Where execution goes on after an instruction that does not branch (R290 item 8). -/
def nextPc (s : State) : Word :=
  match s.delay with
  | some target => target
  | none => s.pc + 2#32

/-- Every general register but those listed is unchanged. -/
def SameRegs (changed : List Reg) (s t : State) : Prop := ∀ r, r ∉ changed → t.reg r = s.reg r

/-- Every byte of memory reads as before. -/
def SameMem (s t : State) : Prop := ∀ a, t.byteAt a = s.byteAt a

/-- Every byte of memory outside the n bytes at a reads as before. -/
def SameMemOutside (a : Word) (n : Nat) (s t : State) : Prop := ∀ b, b ∉ span a n → t.byteAt b = s.byteAt b

/-- GBR and VBR are unchanged. -/
def SameBases (s t : State) : Prop := t.gbr = s.gbr ∧ t.vbr = s.vbr

/-- MACH and MACL are unchanged. -/
def SameMac (s t : State) : Prop := t.mach = s.mach ∧ t.macl = s.macl

/-- The control and system registers other than SR and PC are unchanged. -/
def SameSystem (s t : State) : Prop := SameBases s t ∧ SameMac s t ∧ t.pr = s.pr

/-- The parameters of R8 that no step changes: MEMMAP, END_PC and the three vector parameters. -/
def SameParameters (s t : State) : Prop :=
  t.memMap = s.memMap ∧ t.endPc = s.endPc ∧ t.addressErrorVector = s.addressErrorVector ∧
    t.illegalInstructionVector = s.illegalInstructionVector ∧ t.illegalSlotVector = s.illegalSlotVector

/-- The run status, the parameters and the pending requests are unchanged. -/
def SameRun (s t : State) : Prop := t.status = s.status ∧ SameParameters s t ∧ t.interrupts = s.interrupts

/-- The instruction did not branch: a pending delayed branch is taken, otherwise pc moves to the next instruction. -/
def Advanced (s t : State) : Prop := t.pc = nextPc s ∧ t.delay = none

/-- A delayed branch to `target` is pending and pc is at its delay slot. -/
def BranchPending (target : Word) (s t : State) : Prop := t.delay = some target ∧ t.pc = s.pc + 2#32

/-- Execution is at `target` with nothing pending. -/
def BranchedTo (target : Word) (t : State) : Prop := t.pc = target ∧ t.delay = none

/-- The frame of an instruction that at most writes the listed registers and SR, and does not branch. -/
def RegFrame (changed : List Reg) (s t : State) : Prop :=
  SameRegs changed s t ∧ SameSystem s t ∧ SameMem s t ∧ SameRun s t ∧ Advanced s t

/-! ### Completions: `exec` answers a next state, and this is what it holds -/

/-- i completes with v in Rn and SR unchanged; nothing else changes. -/
def WritesReg (i : Instr) (s : State) (n : Reg) (v : Word) : Prop :=
  ∃ t, exec i s = .next t ∧ t.reg n = v ∧ t.sr = s.sr ∧ RegFrame [n] s t

/-- i completes with v in Rn and b in T; the other bits of SR and everything else are unchanged. -/
def WritesRegT (i : Instr) (s : State) (n : Reg) (v : Word) (b : Bool) : Prop :=
  ∃ t, exec i s = .next t ∧ t.reg n = v ∧ t.sr = { s.sr with t := b } ∧ RegFrame [n] s t

/-- i completes with SR holding r; nothing else changes. -/
def WritesSr (i : Instr) (s : State) (r : StatusReg) : Prop :=
  ∃ t, exec i s = .next t ∧ t.sr = r ∧ RegFrame [] s t

/-- i completes with b in T; nothing else changes. -/
def WritesT (i : Instr) (s : State) (b : Bool) : Prop := WritesSr i s { s.sr with t := b }

/-- The frame of an instruction that stores n bytes at a, writes at most the listed registers, and does not branch. -/
def StoreFrame (a : Word) (n : Nat) (changed : List Reg) (s t : State) : Prop :=
  SameMemOutside a n s t ∧ SameRegs changed s t ∧ SameSystem s t ∧ SameRun s t ∧ Advanced s t

/-- i completes with the byte v stored at a; nothing else changes. -/
def StoresByte (i : Instr) (s : State) (a : Word) (v : Byte) : Prop :=
  ∃ t, exec i s = .next t ∧ HoldsByte t a v ∧ t.sr = s.sr ∧ StoreFrame a 1 [] s t

/-- i completes with the word v stored at a; nothing else changes. -/
def StoresHalf (i : Instr) (s : State) (a : Word) (v : Half) : Prop :=
  ∃ t, exec i s = .next t ∧ HoldsHalf t a v ∧ t.sr = s.sr ∧ StoreFrame a 2 [] s t

/-- i completes with the longword v stored at a; nothing else changes. -/
def StoresLong (i : Instr) (s : State) (a : Word) (v : Word) : Prop :=
  ∃ t, exec i s = .next t ∧ HoldsLong t a v ∧ t.sr = s.sr ∧ StoreFrame a 4 [] s t

/-- i completes with the longword v popped from @Rm+, R[m] incremented by 4 (R325); nothing else in the general registers
and memory changes. What v went to is the caller's to say. -/
def PopsLong (i : Instr) (s : State) (m : Reg) (post : State → Prop) : Prop :=
  ∃ t, exec i s = .next t ∧ post t ∧ t.reg m = s.reg m + 4#32 ∧ SameRegs [m] s t ∧ SameMem s t ∧ SameRun s t ∧
    Advanced s t

/-- i completes without writing a general register or memory, and `post` holds of the next state. -/
def Moves (i : Instr) (s : State) (post : State → Prop) : Prop :=
  ∃ t, exec i s = .next t ∧ post t ∧ SameRegs [] s t ∧ SameMem s t ∧ SameRun s t ∧ Advanced s t

/-- i completes with the longword v stored at R[n] - 4 and R[n] decremented by 4; nothing else changes. -/
def PushesLong (i : Instr) (s : State) (n : Reg) (v : Word) : Prop :=
  ∃ t, exec i s = .next t ∧ HoldsLong t (s.reg n - 4#32) v ∧ t.reg n = s.reg n - 4#32 ∧ t.sr = s.sr ∧
    StoreFrame (s.reg n - 4#32) 4 [n] s t

/-- The entry of an exception (R383): the frame of SR and the return address below R15, R15 at it, pc at the handler. -/
def EntersException (s : State) (returnPc target : Word) (t : State) : Prop :=
  HoldsLong t (s.reg 15#4 - 4#32) s.sr.toWord ∧ HoldsLong t (s.reg 15#4 - 8#32) returnPc ∧
    t.reg 15#4 = s.reg 15#4 - 8#32 ∧ BranchedTo target t ∧
    SameMemOutside (s.reg 15#4 - 8#32) 8 s t ∧ SameRegs [15#4] s t ∧ SameSystem s t ∧ SameParameters s t

/-- Nothing in memory, the run status, the parameters, GBR, VBR or MAC changes: the frame the branches share. -/
def BranchFrame (s t : State) : Prop :=
  SameRegs [] s t ∧ t.sr = s.sr ∧ SameBases s t ∧ SameMac s t ∧ SameMem s t ∧ SameRun s t

end Sys2Proof.Machine
end

