-- ==== Sys2Proof/Certificates/Slice0/Obligations.lean ====
section
/-! DEFINITION. The statements for the provers: one `def Obligations.<Name> : Prop` each, listed in OBLIGATIONS.json. They
come from the numbered rules of spec/; the terms they use (frames, completions, what memory holds) are defined in
Sys2Proof/Safety.lean. -/

open Sys2Proof Sys2Proof.Machine

/-- Twenty codes of the source's listings decode to the instructions printed beside them. Derived from R81, R87, R88.
The object codes the listings of the source's Section 3 print beside their instructions (E11F = MOV #31,R1; 2F36 =
MOV.L R3,@-R15; 410F = MAC.W @R0+,@R1+; ...) decode to those instructions. -/
def Obligations.ListedCodesDecode : Prop :=
  decode 0xE11F#16 = some (.movImm 1#4 0x1F#8) ∧ decode 0x6323#16 = some (.mov 3#4 2#4) ∧
  decode 0x2F36#16 = some (.movlPreDec 15#4 3#4) ∧ decode 0x63F6#16 = some (.movlPostInc 3#4 15#4) ∧
  decode 0x8011#16 = some (.movbStoreDisp 1#4 1#4) ∧ decode 0x1101#16 = some (.movlStoreDisp 1#4 0#4 1#4) ∧
  decode 0x71FF#16 = some (.addImm 1#4 0xFF#8) ∧ decode 0x320C#16 = some (.add 2#4 0#4) ∧
  decode 0x3204#16 = some (.div1 2#4 0#4) ∧ decode 0x410F#16 = some (.macw 1#4 0#4) ∧
  decode 0x234A#16 = some (.xorReg 3#4 4#4) ∧ decode 0x4124#16 = some (.rotcl 1#4) ∧
  decode 0x8902#16 = some (.bt 2#8) ∧ decode 0xAFBE#16 = some (.bra 0xFBE#12) ∧
  decode 0x000B#16 = some .rts ∧ decode 0x4F12#16 = some (.stslMacl 15#4) ∧
  decode 0x431A#16 = some (.ldsMacl 3#4) ∧ decode 0x4F16#16 = some (.ldslMacl 15#4) ∧
  decode 0x031A#16 = some (.stsMacl 3#4) ∧ decode 0x0009#16 = some .nop

/-- Every instruction is decoded from its own code, with every operand. Derived from R82, R83, R84, R87. For every
instruction i of the 133 forms, with every value of its register, immediate and displacement fields, decoding the
code of i gives i. -/
def Obligations.DecodeInvertsEncode : Prop :=
  ∀ i : Instr, decode (encode i) = some i

/-- A code that decodes is the code of the instruction it decodes to. Derived from R80, R82, R87. If a 16-bit code
decodes to an instruction, then encoding that instruction gives the code back: decoding drops no bit and gives no
instruction a second spelling. -/
def Obligations.EncodeInvertsDecode : Prop :=
  ∀ (op : BitVec 16) (i : Instr), decode op = some i → encode i = op

/-- A code decodes exactly when a row of the opcode table selects it, to an instruction of that row. Derived from R87,
R89. The opcode table has 133 rows (mask, match), and no 16-bit code is selected by two of them. For every 16-bit
code the decoder answers an instruction if and only if one of the rows selects the code, and the row of the
instruction it answers selects the code. -/
def Obligations.DecodeAcceptsExactlyTheTable : Prop :=
  opcodeRows.length = 133 ∧
    (opcodeRows.Pairwise fun r q => ∀ op : BitVec 16, ¬ (r.selects op = true ∧ q.selects op = true)) ∧
    ∀ op : BitVec 16, (decode op).isSome = definedCode op ∧ ∀ i, decode op = some i → i.row.selects op = true

/-- A step runs the instruction whose code lies at pc. Derived from R54, R81, R290, R395. In a running state whose run
is not at its end and that accepts no interrupt: if pc is even, its two bytes are program text and hold the code op,
most significant byte first, and op decodes to i, then step is exec of i at that state. -/
def Obligations.StepRunsDecodedInstruction : Prop :=
  ∀ (s : State) (op : BitVec 16) (i : Instr), s.Executes → s.pc.toNat % 2 = 0 →
    s.isText s.pc = true → s.isText (s.pc + 1#32) = true → HoldsHalf s s.pc op → decode op = some i →
    step s = exec i s

/-- Where there is no instruction to run, the step stops with the reason the spec names. Derived from R54, R66, R290,
R386, R387, R389, R392. In a running state not at its end and accepting no interrupt: an odd pc is AddressError(pc,
fetch, 2) (decision D2); an even pc with a byte outside program text is refused (D8); two bytes of program text, one
of which holds no value, are UnwrittenRead at such a byte (D6); program text holding a code that does not decode is
IllegalInstruction (D3). The stops and their order are the spec's own decisions; log entries 5, 7, 10, 11, 30. -/
def Obligations.StepWithoutInstruction : Prop :=
  ∀ s : State, s.Executes →
    (s.pc.toNat % 2 ≠ 0 → step s = .fault (.addressError s.pc .fetch 2)) ∧
    (s.pc.toNat % 2 = 0 → (s.isText s.pc && s.isText (s.pc + 1#32)) = false →
      step s = .refused (.fetchOutsideText s.pc)) ∧
    (s.pc.toNat % 2 = 0 → s.isText s.pc = true → s.isText (s.pc + 1#32) = true →
      (∃ b ∈ span s.pc 2, s.byteAt b = none) →
      ∃ b ∈ span s.pc 2, s.byteAt b = none ∧ step s = .fault (.unwrittenRead b)) ∧
    (∀ op : BitVec 16, s.pc.toNat % 2 = 0 → s.isText s.pc = true → s.isText (s.pc + 1#32) = true →
      HoldsHalf s s.pc op → decode op = none → step s = .fault (.illegalInstruction op s.pc))

/-- A running machine at END_PC with no delayed branch pending ends its run; nothing else changes, and no step follows.
Derived from R290, R428. If the machine runs, pc is END_PC and no delayed branch is pending, the step sets the
status to ended and changes nothing else; in status ended no step exists. END_PC is the spec's own device (decision
D16, log entry 4). -/
def Obligations.RunEndsAtEndPc : Prop :=
  ∀ s : State,
    (s.status = .running → s.pc = s.endPc → s.delay = none → step s = .next { s with status := .ended }) ∧
    (s.status = .ended → step s = .fault .runEnded)

/-- What the state after reset holds. Derived from R8, R24, R40, R41, R43, R395, R421. After reset no delayed branch is
pending and the machine runs (R43, model state). The rest is the model's choice: no byte of memory holds a value
(log entry 5), no interrupt is pending (decision D5, log 14), no vector parameter is supplied (log 13), pc, R15, PR
and END_PC the spec's default LAUNCH (log entries 3, 4), SR = 0x000000F0 and VBR = 0 the family's values (log 2),
every other register 0 (log 1), the whole space backed without text (log 6). -/
def Obligations.ResetStateValues : Prop :=
  State.reset.delay = none ∧ State.reset.status = .running ∧ State.reset.interrupts = [] ∧
    (∀ a, State.reset.byteAt a = none ∧ State.reset.backed a = true ∧ State.reset.isText a = false) ∧
    State.reset.pc = 0x00001000#32 ∧ State.reset.reg 15#4 = 0x00FFFF00#32 ∧ State.reset.pr = 0x0F000000#32 ∧
    State.reset.endPc = 0x0F000000#32 ∧ State.reset.sr.toWord = 0x000000F0#32 ∧ State.reset.vbr = 0#32 ∧
    State.reset.gbr = 0#32 ∧ State.reset.mach = 0#10 ∧ State.reset.macl = 0#32 ∧
    State.reset.addressErrorVector = none ∧ State.reset.illegalInstructionVector = none ∧
    State.reset.illegalSlotVector = none ∧
    ∀ r : Reg, r ≠ 15#4 → State.reset.reg r = 0#32

/-- The memory of the state after reset has the canonical form. Derived from R43, R421. The memory invariant (addresses
strictly rising and below 2^32, no entry equal to what an unlisted address reads as) holds of the state after reset. -/
def Obligations.ResetMemoryCanonical : Prop :=
  State.reset.Inv

/-- Every step keeps the memory in its canonical form. Derived from R52, R53, R290. For every state whose memory has the
canonical form, if the step answers a next state, the memory of that state has the canonical form: equal memories
stay equal data. -/
def Obligations.StepKeepsMemoryCanonical : Prop :=
  ∀ s t : State, s.Inv → step s = .next t → t.Inv

/-- No step changes a byte of program text. Derived from R53, R63, R66. For every state and every address that MEMMAP
marks as program text: if the step (an instruction, an exception entry or an interrupt acceptance) answers a next
state, the byte there reads as before. Immutability of text is the spec's decision D8 (log entry 7). -/
def Obligations.StepKeepsProgramText : Prop :=
  ∀ (s t : State) (a : Word), s.isText a = true → step s = .next t → t.byteAt a = s.byteAt a

/-- No step changes MEMMAP, END_PC or the three vector parameters. Derived from R8, R62, R381, R428. For every state, if
the step answers a next state, the parameters MEMMAP, END_PC, ADDRESS_ERROR_VECTOR, ILLEGAL_INSTRUCTION_VECTOR and
ILLEGAL_SLOT_VECTOR are what they were. That they are held in State is the model's choice (log entries 4, 6, 13). -/
def Obligations.StepKeepsParameters : Prop :=
  ∀ s t : State, step s = .next t → SameParameters s t

/-- Each field of SR is changed only by the instructions the spec lists for it. Derived from R25, R26, R27, R28. For
every instruction and state with a next state: T is unchanged unless the instruction is in the list of R26; S and
the interrupt mask are unchanged unless it is LDC Rm,SR, LDC.L @Rm+,SR or RTE; Q and M are unchanged unless it is
one of those or DIV0S, DIV0U, DIV1. -/
def Obligations.StatusBitsWrittenOnlyByListed : Prop :=
  ∀ (i : Instr) (s t : State), exec i s = .next t →
    (writesT i = false → t.sr.t = s.sr.t) ∧
    (writesWholeSr i = false → t.sr.s = s.sr.s ∧ t.sr.i = s.sr.i) ∧
    (writesWholeSr i = false → isDivision i = false → t.sr.q = s.sr.q ∧ t.sr.m = s.sr.m)

/-- GBR, VBR, PR, MACL and MACH are each changed only by the instructions the spec lists for it. Derived from R29, R30,
R31, R34, R35. For every instruction and state with a next state: GBR changes only by LDC and LDC.L to GBR, VBR only
by LDC and LDC.L to VBR, PR only by BSR, JSR, LDS and LDS.L to PR, MACL only by MULS, MULU, MAC.W, CLRMAC, LDS and
LDS.L to MACL, MACH only by MAC.W, CLRMAC, LDS and LDS.L to MACH. That MULS and MULU leave MACH alone is the spec's
decision D18 (log entry 22). -/
def Obligations.SpecialRegistersWrittenOnlyByListed : Prop :=
  ∀ (i : Instr) (s t : State), exec i s = .next t →
    (writesGbr i = false → t.gbr = s.gbr) ∧ (writesVbr i = false → t.vbr = s.vbr) ∧
    (writesPr i = false → t.pr = s.pr) ∧ (writesMacl i = false → t.macl = s.macl) ∧
    (writesMach i = false → t.mach = s.mach)

/-- An instruction outside the accumulator's list neither reads nor writes MACH and MACL. Derived from R31, R33, R34,
R207. For every instruction outside the list of those that use MACH or MACL, running it with other contents of the
accumulator gives the same outcome (next state, fault or refusal) with those other contents carried along untouched. -/
def Obligations.AccumulatorInvisibleToOthers : Prop :=
  ∀ (i : Instr) (s : State) (h : BitVec 10) (l : Word), usesMac i = false →
    exec i { s with mach := h, macl := l } =
      Result.andThen (exec i s) fun t => .next { t with mach := h, macl := l }

/-- Where pc goes after an instruction that completes. Derived from R38, R40, R290, R291. If a delayed branch is pending
when an instruction completes, pc becomes its target and nothing is pending any more, whatever the instruction is.
If none is pending and the instruction is none of BRA, BSR, JMP, JSR, RTS, RTE, BF, BT, TRAPA, pc becomes pc + 2 and
nothing is pending. -/
def Obligations.ProgramCounterAdvance : Prop :=
  ∀ (i : Instr) (s t : State), exec i s = .next t →
    (∀ target, s.delay = some target → t.pc = target ∧ t.delay = none) ∧
    (s.delay = none → changesFlow i = false → t.pc = s.pc + 2#32 ∧ t.delay = none)

/-- The twelve forbidden forms in a delay slot are IllegalSlot. Derived from R292, R388. With a delayed branch pending,
each of BRA, BSR, JMP, JSR, RTS, RTE, BF, BT, TRAPA, MOVA, MOV.W @(disp,PC),Rn and MOV.L @(disp,PC),Rn stops with
IllegalSlot carrying its code and pc, and no other instruction stops so. The fault is the spec's decision D4 (log
entry 12). -/
def Obligations.ForbiddenFormInDelaySlot : Prop :=
  ∀ (i : Instr) (s : State) (target : Word), s.delay = some target →
    (i.slotForbidden = true → exec i s = .fault (.illegalSlot (encode i) s.pc)) ∧
    (i.slotForbidden = false → ∀ op pc, exec i s ≠ .fault (.illegalSlot op pc))

/-- A delayed branch reaches the target fixed when it executed, whatever its delay slot instruction writes. Derived from
R290, R291, R293, R297, R298, R299, R300, R301, R344. If a delayed branch completes in s and then any instruction
completes in its delay slot, pc is the target computed from s: pc + 4 + 2·disp for BRA and BSR, R[m] for JMP and
JSR, PR for RTS, the longword at R15 for RTE, even when the slot instruction changes that register; for BSR and JSR
the slot instruction runs with PR = pc + 4. That the target is fixed then is the spec's decision D12 (log entry 19). -/
def Obligations.DelayedBranchReachesItsTarget : Prop :=
  ∀ (s s1 s2 : State) (slot : Instr), exec slot s1 = .next s2 →
    (∀ d, exec (.bra d) s = .next s1 → BranchedTo (s.pc + 4#32 + d.signExtend 32 * 2#32) s2) ∧
    (∀ d, exec (.bsr d) s = .next s1 →
      BranchedTo (s.pc + 4#32 + d.signExtend 32 * 2#32) s2 ∧ s1.pr = s.pc + 4#32) ∧
    (∀ m, exec (.jmp m) s = .next s1 → BranchedTo (s.reg m) s2) ∧
    (∀ m, exec (.jsr m) s = .next s1 → BranchedTo (s.reg m) s2 ∧ s1.pr = s.pc + 4#32) ∧
    (exec .rts s = .next s1 → BranchedTo s.pr s2) ∧
    (∀ v, ReadsLong s (s.reg 15#4) v → exec .rte s = .next s1 → BranchedTo v s2)

/-- The effective address of the displacement, indexed, GBR and PC-relative modes, the branch targets and the vector
address. Derived from R86, R95, R96, R97, R98, R99, R100, R384. In integers, the address each of these forms
computes is the base plus the displacement times the operand size, modulo 2^32 (decision D15, log entry 21):
@(disp,Rn), @(R0,Rn), @(disp,GBR), @(R0,GBR), @(disp,PC) for words and longwords, the branch targets (sign-extended,
doubled), and the vector address VBR + 4·imm. A longword PC-relative address is a multiple of 4 whatever pc is, and
a word one is even when pc is even. The modes @Rn, @Rm+ and @-Rn, whose address is R[n], R[m] or R[n] minus the
size, are in LoadResults, StoreResults, PostIncrementLoadResults and PreDecrementStoreResults. -/
def Obligations.EffectiveAddresses : Prop :=
  ∀ (s : State) (r : Reg) (d4 : BitVec 4) (d8 : BitVec 8) (d12 : BitVec 12) (k : Nat), k ≤ 4 →
    (eaDisp s r d4 (BitVec.ofNat 32 k)).toNat = ((s.reg r).toNat + d4.toNat * k) % 2 ^ 32 ∧
    (eaIndexed s r).toNat = ((s.reg 0#4).toNat + (s.reg r).toNat) % 2 ^ 32 ∧
    (eaGbr s d8 (BitVec.ofNat 32 k)).toNat = (s.gbr.toNat + d8.toNat * k) % 2 ^ 32 ∧
    (eaGbrIndexed s).toNat = (s.gbr.toNat + (s.reg 0#4).toNat) % 2 ^ 32 ∧
    (eaPcWord s d8).toNat = (s.pc.toNat + 4 + d8.toNat * 2) % 2 ^ 32 ∧
    (eaPcLong s d8).toNat = ((s.pc.toNat + 4) / 4 * 4 + d8.toNat * 4) % 2 ^ 32 ∧
    (target8 s d8).toNat = (s.pc.toNat + 4 + d8.toInt * 2) % 2 ^ 32 ∧
    (target12 s d12).toNat = (s.pc.toNat + 4 + d12.toInt * 2) % 2 ^ 32 ∧
    (vectorAddress s d8).toNat = (s.vbr.toNat + d8.toNat * 4) % 2 ^ 32 ∧
    (eaPcLong s d8).toNat % 4 = 0 ∧ (s.pc.toNat % 2 = 0 → (eaPcWord s d8).toNat % 2 = 0)

/-- What a memory read answers: address error, refusal, unwritten read, or the big-endian value. Derived from R50, R52,
R55, R63, R389. MemRead of n = 2 or 4 bytes at an address that is not a multiple of n is AddressError; an aligned
read (any n) of a byte MEMMAP does not back is refused; a reachable read with a byte that holds no value faults
UnwrittenRead at such a byte; otherwise the value is the bytes with the one at the lowest address most significant.
The treatments are decisions D1, D6, D23 (log entries 5, 10, 25). -/
def Obligations.ReadOutcomes : Prop :=
  ∀ (s : State) (a : Word),
    (a.toNat % 2 ≠ 0 → read16 s a = .fault (.addressError a .read 2)) ∧
    (a.toNat % 4 ≠ 0 → read32 s a = .fault (.addressError a .read 4)) ∧
    (¬ Backed s a 1 → read8 s a = .refused (.notBacked a .read)) ∧
    (a.toNat % 2 = 0 → ¬ Backed s a 2 → read16 s a = .refused (.notBacked a .read)) ∧
    (a.toNat % 4 = 0 → ¬ Backed s a 4 → read32 s a = .refused (.notBacked a .read)) ∧
    (Reachable s a 1 → s.byteAt a = none → read8 s a = .fault (.unwrittenRead a)) ∧
    (Reachable s a 2 → (∃ b ∈ span a 2, s.byteAt b = none) →
      ∃ b ∈ span a 2, s.byteAt b = none ∧ read16 s a = .fault (.unwrittenRead b)) ∧
    (Reachable s a 4 → (∃ b ∈ span a 4, s.byteAt b = none) →
      ∃ b ∈ span a 4, s.byteAt b = none ∧ read32 s a = .fault (.unwrittenRead b)) ∧
    (∀ v, ReadsByte s a v → read8 s a = .next v) ∧ (∀ v, ReadsHalf s a v → read16 s a = .next v) ∧
    (∀ v, ReadsLong s a v → read32 s a = .next v)

/-- What a memory write answers: address error, refusal, or the bytes stored big-endian and no other changed. Derived
from R50, R53, R55, R63, R66. MemWrite of n = 2 or 4 bytes at an address that is not a multiple of n is
AddressError; an aligned write to a byte that is not backed, or to a backed range with a byte of program text, is
refused; otherwise the bytes of the value are stored, most significant at the lowest address, every other byte of
memory reads as before, and no other state changes. The treatments are decisions D1, D8, D23 (log entries 7, 10,
25). -/
def Obligations.WriteOutcomes : Prop :=
  ∀ (s : State) (a : Word) (b : Byte) (h : Half) (v : Word),
    (a.toNat % 2 ≠ 0 → write16 s a h = .fault (.addressError a .write 2)) ∧
    (a.toNat % 4 ≠ 0 → write32 s a v = .fault (.addressError a .write 4)) ∧
    (a.toNat % 4 = 0 → ¬ Backed s a 4 → write32 s a v = .refused (.notBacked a .write)) ∧
    (Reachable s a 4 → (∃ c ∈ span a 4, s.isText c = true) → write32 s a v = .refused (.storeToText a)) ∧
    (a.toNat % 2 = 0 → ¬ Backed s a 2 → write16 s a h = .refused (.notBacked a .write)) ∧
    (Reachable s a 2 → (∃ c ∈ span a 2, s.isText c = true) → write16 s a h = .refused (.storeToText a)) ∧
    (¬ Backed s a 1 → write8 s a b = .refused (.notBacked a .write)) ∧
    (Reachable s a 1 → s.isText a = true → write8 s a b = .refused (.storeToText a)) ∧
    (Storable s a 1 → ∃ m, write8 s a b = .next { s with mem := m } ∧
      HoldsByte { s with mem := m } a b ∧ SameMemOutside a 1 s { s with mem := m }) ∧
    (Storable s a 2 → ∃ m, write16 s a h = .next { s with mem := m } ∧
      HoldsHalf { s with mem := m } a h ∧ SameMemOutside a 2 s { s with mem := m }) ∧
    (Storable s a 4 → ∃ m, write32 s a v = .next { s with mem := m } ∧
      HoldsLong { s with mem := m } a v ∧ SameMemOutside a 4 s { s with mem := m })

/-- A longword stored by MOV.L reads back whole, as two words and as four bytes, most significant first. Derived from
R50, R53, R65, R127. After MOV.L Rm,@Rn completes, with a = R[n] and v = R[m] of the state before, the bytes at a,
a+1, a+2, a+3 read as v[31:24], v[23:16], v[15:8], v[7:0], the words at a and a+2 as v[31:16] and v[15:0], and the
longword at a as v. -/
def Obligations.StoredLongwordSeenInParts : Prop :=
  ∀ (s t : State) (n m : Reg), exec (.movlStore n m) s = .next t →
    read32 t (s.reg n) = .next (s.reg m) ∧
    read16 t (s.reg n) = .next ((s.reg m).extractLsb' 16 16) ∧
    read16 t (s.reg n + 2#32) = .next ((s.reg m).extractLsb' 0 16) ∧
    read8 t (s.reg n) = .next ((s.reg m).extractLsb' 24 8) ∧
    read8 t (s.reg n + 1#32) = .next ((s.reg m).extractLsb' 16 8) ∧
    read8 t (s.reg n + 2#32) = .next ((s.reg m).extractLsb' 8 8) ∧
    read8 t (s.reg n + 3#32) = .next ((s.reg m).extractLsb' 0 8)

/-- Every instruction that reads a word or longword raises AddressError when the address is misaligned. Derived from
R55, R56, R122, R207, R325, R344, R359, R386, R399. The word loads at an odd address and the longword loads, LDC.L,
LDS.L and RTE (outside a delay slot) at an address that is not a multiple of 4 stop with AddressError(address, read,
size). MAC.W does so for R[n] odd, and for R[m] odd once its first word can be read and m is not n (with m = n the
second address is R[n] + 2); TRAPA does so for its vector table entry when VBR is not a multiple of 4 and its frame
can be pushed; MOV.W @(disp,PC) only from an odd pc, MOV.L @(disp,PC) never. A fault has no next state, so nothing
is written (decision D1, log entry 10; order of checks: log entries 16, 20, 30). -/
def Obligations.MisalignedReadsFault : Prop :=
  ∀ (s : State) (n m : Reg) (d4 : BitVec 4) (d8 : BitVec 8) (a : Word),
    (a.toNat % 2 ≠ 0 →
      (s.reg m = a → exec (.movwLoad n m) s = .fault (.addressError a .read 2) ∧
        exec (.movwPostInc n m) s = .fault (.addressError a .read 2)) ∧
      (eaDisp s m d4 2#32 = a → exec (.movwLoadDisp m d4) s = .fault (.addressError a .read 2)) ∧
      (eaIndexed s m = a → exec (.movwLoadIdx n m) s = .fault (.addressError a .read 2)) ∧
      (eaGbr s d8 2#32 = a → exec (.movwLoadGbr d8) s = .fault (.addressError a .read 2)) ∧
      (s.reg n = a → exec (.macw n m) s = .fault (.addressError a .read 2)) ∧
      (∀ h, m ≠ n → ReadsHalf s (s.reg n) h → s.reg m = a → exec (.macw n m) s = .fault (.addressError a .read 2)) ∧
      (s.delay = none → eaPcWord s d8 = a → exec (.movwPc n d8) s = .fault (.addressError a .read 2))) ∧
    (a.toNat % 4 ≠ 0 →
      (s.reg m = a → ∀ i ∈ [Instr.movlLoad n m, .movlPostInc n m, .ldclSr m, .ldclGbr m, .ldclVbr m, .ldslMach m,
        .ldslMacl m, .ldslPr m], exec i s = .fault (.addressError a .read 4)) ∧
      (eaDisp s m d4 4#32 = a → exec (.movlLoadDisp n m d4) s = .fault (.addressError a .read 4)) ∧
      (eaIndexed s m = a → exec (.movlLoadIdx n m) s = .fault (.addressError a .read 4)) ∧
      (eaGbr s d8 4#32 = a → exec (.movlLoadGbr d8) s = .fault (.addressError a .read 4)) ∧
      (s.delay = none → s.reg 15#4 = a → exec .rte s = .fault (.addressError a .read 4)) ∧
      (s.delay = none → Storable s (s.reg 15#4 - 4#32) 4 → Storable s (s.reg 15#4 - 8#32) 4 →
        vectorAddress s d8 = a → exec (.trapa d8) s = .fault (.addressError a .read 4)))

/-- Every instruction that writes a word or longword raises AddressError when its address is misaligned. Derived from
R55, R56, R386, R325, R359, R399. The word stores at an odd address and the longword stores, STC.L, STS.L and TRAPA
(outside a delay slot) at an address that is not a multiple of 4 stop with AddressError(address, write, size), so
nothing is written (decision D1, log entry 10). -/
def Obligations.MisalignedWritesFault : Prop :=
  ∀ (s : State) (n m : Reg) (d4 : BitVec 4) (d8 : BitVec 8) (a : Word),
    (a.toNat % 2 ≠ 0 →
      (s.reg n = a → exec (.movwStore n m) s = .fault (.addressError a .write 2)) ∧
      (s.reg n - 2#32 = a → exec (.movwPreDec n m) s = .fault (.addressError a .write 2)) ∧
      (eaDisp s n d4 2#32 = a → exec (.movwStoreDisp n d4) s = .fault (.addressError a .write 2)) ∧
      (eaIndexed s n = a → exec (.movwStoreIdx n m) s = .fault (.addressError a .write 2)) ∧
      (eaGbr s d8 2#32 = a → exec (.movwStoreGbr d8) s = .fault (.addressError a .write 2))) ∧
    (a.toNat % 4 ≠ 0 →
      (s.reg n = a → exec (.movlStore n m) s = .fault (.addressError a .write 4)) ∧
      (s.reg n - 4#32 = a → ∀ i ∈ [Instr.movlPreDec n m, .stclSr n, .stclGbr n, .stclVbr n, .stslMach n, .stslMacl n,
        .stslPr n], exec i s = .fault (.addressError a .write 4)) ∧
      (eaDisp s n d4 4#32 = a → exec (.movlStoreDisp n m d4) s = .fault (.addressError a .write 4)) ∧
      (eaIndexed s n = a → exec (.movlStoreIdx n m) s = .fault (.addressError a .write 4)) ∧
      (eaGbr s d8 4#32 = a → exec (.movlStoreGbr d8) s = .fault (.addressError a .write 4)) ∧
      (s.delay = none → s.reg 15#4 - 4#32 = a → exec (.trapa d8) s = .fault (.addressError a .write 4)))

/-- MOV #imm,Rn, MOV Rm,Rn, MOVT, SWAP.B, SWAP.W and XTRCT: code, result and frame. Stated by R121, R124, R156, R157,
R158, R159. In every state each completes, writing only Rn (and pc): the sign-extended immediate; Rm; T; Rm with the
bytes of its low half swapped; Rm with its halves swapped; the middle longword of Rm:Rn. No bit of SR and no memory
changes. Each has the code the rule gives. -/
def Obligations.RegisterMoveResults : Prop :=
  ∀ (s : State) (n m : Reg) (i : BitVec 8),
    WritesReg (.movImm n i) s n (i.signExtend 32) ∧ encode (.movImm n i) = 0b1110#4 ++ n ++ i ∧
    WritesReg (.mov n m) s n (s.reg m) ∧ encode (.mov n m) = 0b0110#4 ++ n ++ m ++ 0b0011#4 ∧
    WritesReg (.movt n) s n (if s.sr.t then 1#32 else 0#32) ∧ encode (.movt n) = 0b0000#4 ++ n ++ 0b00101001#8 ∧
    WritesReg (.swapb n m) s n
      ((s.reg m).extractLsb' 16 16 ++ (s.reg m).extractLsb' 0 8 ++ (s.reg m).extractLsb' 8 8) ∧
    encode (.swapb n m) = 0b0110#4 ++ n ++ m ++ 0b1000#4 ∧
    WritesReg (.swapw n m) s n ((s.reg m).extractLsb' 0 16 ++ (s.reg m).extractLsb' 16 16) ∧
    encode (.swapw n m) = 0b0110#4 ++ n ++ m ++ 0b1001#4 ∧
    WritesReg (.xtrct n m) s n ((s.reg m).extractLsb' 0 16 ++ (s.reg n).extractLsb' 16 16) ∧
    encode (.xtrct n m) = 0b0010#4 ++ n ++ m ++ 0b1101#4

/-- MOV.B/W/L from @Rm, @(disp,Rm) and @(R0,Rm): result, completion and frame. Derived from R70, R128, R129, R130, R140,
R141, R142, R146, R147, R148. When the aligned, backed bytes at the effective address hold v, each of the nine loads
completes with v (bytes and words sign-extended) in its destination register (R0 for the byte and word displacement
forms) and changes nothing else but pc. -/
def Obligations.LoadResults : Prop :=
  ∀ (s : State) (n m : Reg) (d : BitVec 4) (b : Byte) (h : Half) (v : Word),
    (ReadsByte s (s.reg m) b → WritesReg (.movbLoad n m) s n (BitVec.ofInt 32 b.toInt)) ∧
    (ReadsHalf s (s.reg m) h → WritesReg (.movwLoad n m) s n (BitVec.ofInt 32 h.toInt)) ∧
    (ReadsLong s (s.reg m) v → WritesReg (.movlLoad n m) s n v) ∧
    (ReadsByte s (eaDisp s m d 1#32) b → WritesReg (.movbLoadDisp m d) s 0#4 (BitVec.ofInt 32 b.toInt)) ∧
    (ReadsHalf s (eaDisp s m d 2#32) h → WritesReg (.movwLoadDisp m d) s 0#4 (BitVec.ofInt 32 h.toInt)) ∧
    (ReadsLong s (eaDisp s m d 4#32) v → WritesReg (.movlLoadDisp n m d) s n v) ∧
    (ReadsByte s (eaIndexed s m) b → WritesReg (.movbLoadIdx n m) s n (BitVec.ofInt 32 b.toInt)) ∧
    (ReadsHalf s (eaIndexed s m) h → WritesReg (.movwLoadIdx n m) s n (BitVec.ofInt 32 h.toInt)) ∧
    (ReadsLong s (eaIndexed s m) v → WritesReg (.movlLoadIdx n m) s n v)

/-- MOV.B/W/L @(disp,GBR),R0, MOV.W/L @(disp,PC),Rn and MOVA: result, completion and frame. Derived from R70, R122,
R123, R152, R153, R154, R155. The GBR loads complete with the (sign-extended) datum in R0 when the bytes there hold
it; outside a delay slot the two PC-relative loads complete with the datum in Rn, and MOVA always completes with the
address itself in R0, reading no memory. Nothing else but pc changes. -/
def Obligations.GbrAndPcRelativeLoadResults : Prop :=
  ∀ (s : State) (n : Reg) (d : BitVec 8) (b : Byte) (h : Half) (v : Word),
    (ReadsByte s (eaGbr s d 1#32) b → WritesReg (.movbLoadGbr d) s 0#4 (BitVec.ofInt 32 b.toInt)) ∧
    (ReadsHalf s (eaGbr s d 2#32) h → WritesReg (.movwLoadGbr d) s 0#4 (BitVec.ofInt 32 h.toInt)) ∧
    (ReadsLong s (eaGbr s d 4#32) v → WritesReg (.movlLoadGbr d) s 0#4 v) ∧
    (s.delay = none → ReadsHalf s (eaPcWord s d) h → WritesReg (.movwPc n d) s n (BitVec.ofInt 32 h.toInt)) ∧
    (s.delay = none → ReadsLong s (eaPcLong s d) v → WritesReg (.movlPc n d) s n v) ∧
    (s.delay = none → WritesReg (.mova d) s 0#4 (eaPcLong s d))

/-- MOV.B/W/L @Rm+,Rn: result, increment, the case n = m, completion and frame. Derived from R93, R134, R135, R136. When
the bytes at R[m] hold the datum, the load completes with it (sign-extended) in Rn and, when m is not n, R[m]
incremented by the operand size; with m = n the loaded value is what remains (the spec's decision D10, log entry
17). Nothing else but pc changes. -/
def Obligations.PostIncrementLoadResults : Prop :=
  ∀ (s : State) (n m : Reg) (b : Byte) (h : Half) (v : Word),
    (ReadsByte s (s.reg m) b → ∃ t, exec (.movbPostInc n m) s = .next t ∧ t.reg n = BitVec.ofInt 32 b.toInt ∧
      (m ≠ n → t.reg m = s.reg m + 1#32) ∧ t.sr = s.sr ∧ RegFrame [n, m] s t) ∧
    (ReadsHalf s (s.reg m) h → ∃ t, exec (.movwPostInc n m) s = .next t ∧ t.reg n = BitVec.ofInt 32 h.toInt ∧
      (m ≠ n → t.reg m = s.reg m + 2#32) ∧ t.sr = s.sr ∧ RegFrame [n, m] s t) ∧
    (ReadsLong s (s.reg m) v → ∃ t, exec (.movlPostInc n m) s = .next t ∧ t.reg n = v ∧
      (m ≠ n → t.reg m = s.reg m + 4#32) ∧ t.sr = s.sr ∧ RegFrame [n, m] s t)

/-- MOV.B/W/L to @Rn, @(disp,Rn), @(R0,Rn) and @(disp,GBR): the bytes stored, completion and frame. Derived from R125,
R126, R127, R137, R138, R139, R143, R144, R145, R149, R150, R151. When the effective address is aligned and its
bytes are backed and not program text, each of the twelve stores completes with the low 8, 16 or 32 bits of its
source register (R0 for the byte and word displacement forms and the GBR forms) stored big-endian there; no
register, no other byte of memory and no bit of SR changes. -/
def Obligations.StoreResults : Prop :=
  ∀ (s : State) (n m : Reg) (d : BitVec 4) (g : BitVec 8),
    (Storable s (s.reg n) 1 → StoresByte (.movbStore n m) s (s.reg n) ((s.reg m).extractLsb' 0 8)) ∧
    (Storable s (s.reg n) 2 → StoresHalf (.movwStore n m) s (s.reg n) ((s.reg m).extractLsb' 0 16)) ∧
    (Storable s (s.reg n) 4 → StoresLong (.movlStore n m) s (s.reg n) (s.reg m)) ∧
    (Storable s (eaDisp s n d 1#32) 1 →
      StoresByte (.movbStoreDisp n d) s (eaDisp s n d 1#32) ((s.reg 0#4).extractLsb' 0 8)) ∧
    (Storable s (eaDisp s n d 2#32) 2 →
      StoresHalf (.movwStoreDisp n d) s (eaDisp s n d 2#32) ((s.reg 0#4).extractLsb' 0 16)) ∧
    (Storable s (eaDisp s n d 4#32) 4 → StoresLong (.movlStoreDisp n m d) s (eaDisp s n d 4#32) (s.reg m)) ∧
    (Storable s (eaIndexed s n) 1 →
      StoresByte (.movbStoreIdx n m) s (eaIndexed s n) ((s.reg m).extractLsb' 0 8)) ∧
    (Storable s (eaIndexed s n) 2 →
      StoresHalf (.movwStoreIdx n m) s (eaIndexed s n) ((s.reg m).extractLsb' 0 16)) ∧
    (Storable s (eaIndexed s n) 4 → StoresLong (.movlStoreIdx n m) s (eaIndexed s n) (s.reg m)) ∧
    (Storable s (eaGbr s g 1#32) 1 →
      StoresByte (.movbStoreGbr g) s (eaGbr s g 1#32) ((s.reg 0#4).extractLsb' 0 8)) ∧
    (Storable s (eaGbr s g 2#32) 2 →
      StoresHalf (.movwStoreGbr g) s (eaGbr s g 2#32) ((s.reg 0#4).extractLsb' 0 16)) ∧
    (Storable s (eaGbr s g 4#32) 4 → StoresLong (.movlStoreGbr g) s (eaGbr s g 4#32) (s.reg 0#4))

/-- MOV.B/W/L Rm,@-Rn: the bytes stored, the decrement, the case n = m, completion and frame. Derived from R94, R131,
R132, R133. When R[n] minus the operand size is aligned and its bytes are backed and not program text, the store
completes with the datum of Rm as it was before the decrement (also when n = m: the spec's decision D11, log entry
18) stored there and R[n] decremented by the size; nothing else but pc changes. -/
def Obligations.PreDecrementStoreResults : Prop :=
  ∀ (s : State) (n m : Reg),
    (Storable s (s.reg n - 1#32) 1 → ∃ t, exec (.movbPreDec n m) s = .next t ∧
      HoldsByte t (s.reg n - 1#32) ((s.reg m).extractLsb' 0 8) ∧ t.reg n = s.reg n - 1#32 ∧ t.sr = s.sr ∧
      StoreFrame (s.reg n - 1#32) 1 [n] s t) ∧
    (Storable s (s.reg n - 2#32) 2 → ∃ t, exec (.movwPreDec n m) s = .next t ∧
      HoldsHalf t (s.reg n - 2#32) ((s.reg m).extractLsb' 0 16) ∧ t.reg n = s.reg n - 2#32 ∧ t.sr = s.sr ∧
      StoreFrame (s.reg n - 2#32) 2 [n] s t) ∧
    (Storable s (s.reg n - 4#32) 4 → PushesLong (.movlPreDec n m) s n (s.reg m))

/-- ADD Rm,Rn, ADD #imm,Rn, SUB and NEG: code, exact result modulo 2^32 and frame. Stated by R187, R188, R210, R212. In
every state each completes with the exact sum, difference or negation modulo 2^32 in Rn and T and every other bit of
SR unchanged; nothing else but pc changes. Each has the code the rule gives. -/
def Obligations.AddSubNegResults : Prop :=
  ∀ (s : State) (n m : Reg) (i : BitVec 8),
    WritesReg (.add n m) s n (BitVec.ofNat 32 ((s.reg n).toNat + (s.reg m).toNat)) ∧
    encode (.add n m) = 0b0011#4 ++ n ++ m ++ 0b1100#4 ∧
    WritesReg (.addImm n i) s n (BitVec.ofInt 32 ((s.reg n).toInt + i.toInt)) ∧
    encode (.addImm n i) = 0b0111#4 ++ n ++ i ∧
    WritesReg (.sub n m) s n (BitVec.ofInt 32 ((s.reg n).toInt - (s.reg m).toInt)) ∧
    encode (.sub n m) = 0b0011#4 ++ n ++ m ++ 0b1000#4 ∧
    WritesReg (.neg n m) s n (BitVec.ofInt 32 (- (s.reg m).toInt)) ∧
    encode (.neg n m) = 0b0110#4 ++ n ++ m ++ 0b1011#4

/-- ADDC, SUBC and NEGC: code, exact result, carry or borrow in T, and frame. Stated by R189, R211, R213. In every state
each completes: with the exact s = R[n] + R[m] + T, R[n] - R[m] - T or 0 - R[m] - T, Rn receives s modulo 2^32 and T
is 1 exactly when s is 2^32 or more (ADDC) or negative (SUBC, NEGC). Nothing else but pc changes. Each has the code
the rule gives. -/
def Obligations.CarryAndBorrowResults : Prop :=
  ∀ (s : State) (n m : Reg) (x y t : Int), x = (s.reg n).toNat → y = (s.reg m).toNat → t = s.sr.t.toNat →
    WritesRegT (.addc n m) s n (BitVec.ofInt 32 (x + y + t)) (decide (2 ^ 32 ≤ x + y + t)) ∧
    encode (.addc n m) = 0b0011#4 ++ n ++ m ++ 0b1110#4 ∧
    WritesRegT (.subc n m) s n (BitVec.ofInt 32 (x - y - t)) (decide (x - y - t < 0)) ∧
    encode (.subc n m) = 0b0011#4 ++ n ++ m ++ 0b1010#4 ∧
    WritesRegT (.negc n m) s n (BitVec.ofInt 32 (0 - y - t)) (decide (0 - y - t < 0)) ∧
    encode (.negc n m) = 0b0110#4 ++ n ++ m ++ 0b1010#4

/-- ADDV and SUBV: code, result, signed overflow in T both as a range and as a bit test, and frame. Stated by R190,
R214. In every state each completes with the low 32 bits of the exact signed sum or difference in Rn, and T is 1
exactly when that lies outside -2^31 to 2^31 - 1; equivalently, for ADDV when the operands have the same bit 31 and
the result another, for SUBV when they have different bits 31 and the result's differs from R[n]'s. Nothing else but
pc changes. -/
def Obligations.OverflowResults : Prop :=
  ∀ (s : State) (n m : Reg) (x y : Word), x = s.reg n → y = s.reg m →
    WritesRegT (.addv n m) s n (BitVec.ofInt 32 (x.toInt + y.toInt))
      (decide (2 ^ 31 - 1 < x.toInt + y.toInt ∨ x.toInt + y.toInt < -2 ^ 31)) ∧
    WritesRegT (.addv n m) s n (x + y) (x.msb == y.msb && (x + y).msb != x.msb) ∧
    encode (.addv n m) = 0b0011#4 ++ n ++ m ++ 0b1111#4 ∧
    WritesRegT (.subv n m) s n (BitVec.ofInt 32 (x.toInt - y.toInt))
      (decide (2 ^ 31 - 1 < x.toInt - y.toInt ∨ x.toInt - y.toInt < -2 ^ 31)) ∧
    WritesRegT (.subv n m) s n (x - y) (x.msb != y.msb && (x - y).msb != x.msb) ∧
    encode (.subv n m) = 0b0011#4 ++ n ++ m ++ 0b1011#4

/-- The nine CMP forms: code, condition in T, and frame. Stated by R191, R192, R193, R194, R195, R196, R197, R198, R199.
In every state each completes with T the condition of its rule (equal, unsigned at least or greater, signed at least
or greater, not negative, positive, some byte equal in the same position) and changes nothing else but pc. Each has
the code the rule gives. -/
def Obligations.CompareResults : Prop :=
  ∀ (s : State) (n m : Reg) (i : BitVec 8),
    WritesT (.cmpEqImm i) s (decide ((s.reg 0#4).toInt = i.toInt)) ∧ encode (.cmpEqImm i) = 0b10001000#8 ++ i ∧
    WritesT (.cmpEq n m) s (decide ((s.reg n).toNat = (s.reg m).toNat)) ∧
    encode (.cmpEq n m) = 0b0011#4 ++ n ++ m ++ 0b0000#4 ∧
    WritesT (.cmpHs n m) s ((s.reg m).ule (s.reg n)) ∧ encode (.cmpHs n m) = 0b0011#4 ++ n ++ m ++ 0b0010#4 ∧
    WritesT (.cmpGe n m) s ((s.reg m).sle (s.reg n)) ∧ encode (.cmpGe n m) = 0b0011#4 ++ n ++ m ++ 0b0011#4 ∧
    WritesT (.cmpHi n m) s ((s.reg m).ult (s.reg n)) ∧ encode (.cmpHi n m) = 0b0011#4 ++ n ++ m ++ 0b0110#4 ∧
    WritesT (.cmpGt n m) s ((s.reg m).slt (s.reg n)) ∧ encode (.cmpGt n m) = 0b0011#4 ++ n ++ m ++ 0b0111#4 ∧
    WritesT (.cmpPz n) s (!(s.reg n).msb) ∧ encode (.cmpPz n) = 0b0100#4 ++ n ++ 0b00010001#8 ∧
    WritesT (.cmpPl n) s (!(s.reg n).msb && decide (s.reg n ≠ 0#32)) ∧
    encode (.cmpPl n) = 0b0100#4 ++ n ++ 0b00010101#8 ∧
    WritesT (.cmpStr n m) s (decide (∃ k ∈ List.range 4,
      (s.reg n).extractLsb' (8 * k) 8 = (s.reg m).extractLsb' (8 * k) 8)) ∧
    encode (.cmpStr n m) = 0b0010#4 ++ n ++ m ++ 0b1100#4

/-- DIV0S and DIV0U: code, the bits of SR they set, and frame. Stated by R201, R202. In every state DIV0S completes with
Q the top bit of Rn, M the top bit of Rm, T their exclusive or, and DIV0U with M, Q and T clear; the other bits of
SR, every register and memory are unchanged. Each has the code the rule gives. -/
def Obligations.DivisionInitialization : Prop :=
  ∀ (s : State) (n m : Reg),
    WritesSr (.div0s n m) s { s.sr with q := (s.reg n).getLsbD 31, m := (s.reg m).getLsbD 31,
                                        t := (s.reg m).getLsbD 31 ^^ (s.reg n).getLsbD 31 } ∧
    encode (.div0s n m) = 0b0010#4 ++ n ++ m ++ 0b0111#4 ∧
    WritesSr .div0u s { s.sr with q := false, m := false, t := false } ∧
    encode .div0u = 0b0000000000011001#16

/-- DIV1: one division step in exact integers, completion and frame. Derived from R200. In every state DIV1 completes:
with q the top bit of Rn, x = (2·R[n] mod 2^32) + T, and y the exact x - R[m] when Q = M and x + R[m] otherwise, c
is the borrow (y negative) or the carry (y at least 2^32); Rn receives y modulo 2^32, Q becomes q xor c xor M, T
becomes 1 - (q xor c). The bit-level operation is the family's, stated by the spec (decision D19, log entry 23). -/
def Obligations.Div1StepResult : Prop :=
  ∀ (s : State) (n m : Reg) (x y : Int) (c : Bool),
    x = (2 * (s.reg n).toNat % 2 ^ 32 : Nat) + s.sr.t.toNat →
    y = (if s.sr.q = s.sr.m then x - (s.reg m).toNat else x + (s.reg m).toNat) →
    c = (if s.sr.q = s.sr.m then decide (y < 0) else decide (2 ^ 32 ≤ y)) →
    ∃ t, exec (.div1 n m) s = .next t ∧ t.reg n = BitVec.ofInt 32 y ∧
      t.sr = { s.sr with q := ((s.reg n).msb ^^ c) ^^ s.sr.m, t := !((s.reg n).msb ^^ c) } ∧ RegFrame [n] s t

/-- DIV1 performs one step of non-restoring unsigned division. Derived from R183, R184, R200. Let M = 0 and let Rn, with
Q, hold a partial remainder p smaller than the divisor d = R[m] (Q = 0: Rn is p; Q = 1: Rn is p - d modulo 2^32).
One DIV1 with dividend bit T computes the next quotient digit and remainder of 2p + T by d: T becomes (2p + T) / d,
Q its complement, and Rn holds the new partial remainder (2p + T) mod d in the same form. Rests on R200's bit-level
operation (decision D19, log entry 23). -/
def Obligations.Div1DividesUnsigned : Prop :=
  ∀ (s : State) (n m : Reg) (p d : Nat), n ≠ m → s.sr.m = false → (s.reg m).toNat = d → p < d →
    s.reg n = BitVec.ofInt 32 (if s.sr.q then (p : Int) - d else p) →
    ∃ t, exec (.div1 n m) s = .next t ∧ t.sr.m = false ∧ t.sr.q = !t.sr.t ∧
      t.sr.t.toNat = (2 * p + s.sr.t.toNat) / d ∧ t.reg m = s.reg m ∧
      t.reg n = BitVec.ofInt 32 (if t.sr.q then (((2 * p + s.sr.t.toNat) % d : Nat) : Int) - d
                                 else ((2 * p + s.sr.t.toNat) % d : Nat))

/-- EXTS.B, EXTS.W, EXTU.B and EXTU.W: code, result and frame. Stated by R203, R204, R205, R206. In every state each
completes with the signed or unsigned value of the low byte or word of Rm, as a longword, in Rn; SR and everything
else but pc are unchanged. Each has the code the rule gives. -/
def Obligations.ExtensionResults : Prop :=
  ∀ (s : State) (n m : Reg),
    WritesReg (.extsb n m) s n (BitVec.ofInt 32 ((s.reg m).toInt.bmod 256)) ∧
    encode (.extsb n m) = 0b0110#4 ++ n ++ m ++ 0b1110#4 ∧
    WritesReg (.extsw n m) s n (BitVec.ofInt 32 ((s.reg m).toInt.bmod 65536)) ∧
    encode (.extsw n m) = 0b0110#4 ++ n ++ m ++ 0b1111#4 ∧
    WritesReg (.extub n m) s n (BitVec.ofNat 32 ((s.reg m).toNat % 256)) ∧
    encode (.extub n m) = 0b0110#4 ++ n ++ m ++ 0b1100#4 ∧
    WritesReg (.extuw n m) s n (BitVec.ofNat 32 ((s.reg m).toNat % 65536)) ∧
    encode (.extuw n m) = 0b0110#4 ++ n ++ m ++ 0b1101#4

/-- MULS and MULU: the exact product of the low halves in MACL, completion and frame. Derived from R208, R209. In every
state MULS completes with MACL, read as a signed number, the exact signed product of the low 16 bits of Rn and Rm,
and MULU with MACL the exact unsigned product; no general register, SR, GBR, VBR, PR or memory changes, and MACH is
unchanged (the spec's decision D18, log entry 22). -/
def Obligations.MultiplyResults : Prop :=
  ∀ (s : State) (n m : Reg),
    (∃ t, exec (.muls n m) s = .next t ∧
      t.macl.toInt = ((s.reg n).extractLsb' 0 16).toInt * ((s.reg m).extractLsb' 0 16).toInt ∧
      t.mach = s.mach ∧ t.sr = s.sr ∧ t.pr = s.pr ∧ SameBases s t ∧ SameRegs [] s t ∧ SameMem s t ∧ SameRun s t ∧
      Advanced s t) ∧
    (∃ t, exec (.mulu n m) s = .next t ∧
      t.macl.toNat = ((s.reg n).toNat % 65536) * ((s.reg m).toNat % 65536) ∧
      t.mach = s.mach ∧ t.sr = s.sr ∧ t.pr = s.pr ∧ SameBases s t ∧ SameRegs [] s t ∧ SameMem s t ∧ SameRun s t ∧
      Advanced s t)

/-- MAC.W with S = 0: the 42-bit accumulator, the increments, the case m = n, completion and frame. Derived from R32,
R207. With S = 0, when the word at R[n] holds a and the word at R[m] (at R[n] + 2 when m = n) holds b, MAC.W
completes with MACH:MACL the 42-bit accumulator plus the exact signed product a·b, modulo 2^42, and each address
register incremented by 2 (by 4 when m = n); nothing else but pc changes. Read order, m = n and wrapping are the
spec's decision D9 (log entry 16). -/
def Obligations.MacWrapsAtFortyTwoBits : Prop :=
  ∀ (s : State) (n m : Reg) (a b : Half), s.sr.s = false → ReadsHalf s (s.reg n) a →
    ReadsHalf s (if m = n then s.reg n + 2#32 else s.reg m) b →
    ∃ t, exec (.macw n m) s = .next t ∧
      (t.mach ++ t.macl).toInt = ((s.mach ++ s.macl).toInt + a.toInt * b.toInt).bmod (2 ^ 42) ∧
      SameRegs [n, m] s t ∧ t.reg n = (if m = n then s.reg n + 4#32 else s.reg n + 2#32) ∧
      (m ≠ n → t.reg m = s.reg m + 2#32) ∧ t.sr = s.sr ∧ t.pr = s.pr ∧ SameBases s t ∧ SameMem s t ∧ SameRun s t ∧
      Advanced s t

/-- MAC.W with S = 1: MACL saturates at 32 bits and MACH records it, completion and frame. Derived from R207. With S =
1, when the words addressed hold a and b, MAC.W completes with MACL the exact sum of MACL and a·b limited to -2^31
to 2^31 - 1, bit 0 of MACH set when it was outside that range and MACH otherwise unchanged, and the address
registers incremented as with S = 0; nothing else but pc changes. What happens to MACH is the spec's decision D9
(log entry 16). -/
def Obligations.MacSaturatesAtThirtyTwoBits : Prop :=
  ∀ (s : State) (n m : Reg) (a b : Half) (r : Int), s.sr.s = true → ReadsHalf s (s.reg n) a →
    ReadsHalf s (if m = n then s.reg n + 2#32 else s.reg m) b → r = s.macl.toInt + a.toInt * b.toInt →
    ∃ t, exec (.macw n m) s = .next t ∧ t.macl.toInt = max (-2 ^ 31) (min (2 ^ 31 - 1) r) ∧
      t.mach = (if r < -2 ^ 31 ∨ 2 ^ 31 - 1 < r then s.mach ||| 1#10 else s.mach) ∧
      SameRegs [n, m] s t ∧ t.reg n = (if m = n then s.reg n + 4#32 else s.reg n + 2#32) ∧
      (m ≠ n → t.reg m = s.reg m + 2#32) ∧ t.sr = s.sr ∧ t.pr = s.pr ∧ SameBases s t ∧ SameMem s t ∧ SameRun s t ∧
      Advanced s t

/-- AND, OR, XOR, NOT on registers and AND, OR, XOR #imm,R0: code, result and frame. Derived from R233, R234, R236,
R237, R238, R244, R245. In every state each completes with the bitwise result in Rn (in R0, with the immediate zero-
extended, for the immediate forms); SR and everything else but pc are unchanged. Each has the code the rule gives.
R244's remark that XOR Rn,Rn of an unwritten register faults has no case: that registers always hold a value is the
model's choice (log entry 9). -/
def Obligations.LogicResults : Prop :=
  ∀ (s : State) (n m : Reg) (i : BitVec 8),
    WritesReg (.andReg n m) s n (s.reg n &&& s.reg m) ∧ encode (.andReg n m) = 0b0010#4 ++ n ++ m ++ 0b1001#4 ∧
    WritesReg (.orReg n m) s n (s.reg n ||| s.reg m) ∧ encode (.orReg n m) = 0b0010#4 ++ n ++ m ++ 0b1011#4 ∧
    WritesReg (.xorReg n m) s n (s.reg n ^^^ s.reg m) ∧ encode (.xorReg n m) = 0b0010#4 ++ n ++ m ++ 0b1010#4 ∧
    WritesReg (.notReg n m) s n (0xFFFFFFFF#32 - s.reg m) ∧ encode (.notReg n m) = 0b0110#4 ++ n ++ m ++ 0b0111#4 ∧
    WritesReg (.andImm i) s 0#4 (0#24 ++ ((s.reg 0#4).extractLsb' 0 8 &&& i)) ∧
    encode (.andImm i) = 0b11001001#8 ++ i ∧
    WritesReg (.orImm i) s 0#4 ((s.reg 0#4).extractLsb' 8 24 ++ ((s.reg 0#4).extractLsb' 0 8 ||| i)) ∧
    encode (.orImm i) = 0b11001011#8 ++ i ∧
    WritesReg (.xorImm i) s 0#4 ((s.reg 0#4).extractLsb' 8 24 ++ ((s.reg 0#4).extractLsb' 0 8 ^^^ i)) ∧
    encode (.xorImm i) = 0b11001010#8 ++ i

/-- TST Rm,Rn and TST #imm,R0: code, T and frame. Stated by R241, R242. In every state each completes with T = 1 exactly
when no bit is 1 in both operands (only bits 7 to 0 of R0 count for the immediate form), and changes nothing else
but pc. Each has the code the rule gives. -/
def Obligations.TestResults : Prop :=
  ∀ (s : State) (n m : Reg) (i : BitVec 8),
    WritesT (.tstReg n m) s (decide (∀ k ∈ List.range 32, ((s.reg n).getLsbD k && (s.reg m).getLsbD k) = false)) ∧
    encode (.tstReg n m) = 0b0010#4 ++ n ++ m ++ 0b1000#4 ∧
    WritesT (.tstImm i) s (decide ((s.reg 0#4).extractLsb' 0 8 &&& i = 0#8)) ∧
    encode (.tstImm i) = 0b11001000#8 ++ i

/-- AND.B, OR.B, XOR.B and TST.B #imm,@(R0,GBR): the byte, T, completion and frame. Derived from R231, R235, R239, R243,
R246. When the byte at GBR + R0 is backed and holds b: TST.B completes with T = 1 exactly when b & imm is 0 and
writes no memory; if the byte is not program text AND.B, OR.B and XOR.B complete with b combined with the immediate
stored there. No register, no other byte and no other bit of SR changes. -/
def Obligations.ByteLogicResults : Prop :=
  ∀ (s : State) (i b : Byte), ReadsByte s (eaGbrIndexed s) b →
    WritesT (.tstByte i) s (decide (b &&& i = 0#8)) ∧
    (s.isText (eaGbrIndexed s) = false →
      StoresByte (.andByte i) s (eaGbrIndexed s) (b &&& i) ∧ StoresByte (.orByte i) s (eaGbrIndexed s) (b ||| i) ∧
      StoresByte (.xorByte i) s (eaGbrIndexed s) (b ^^^ i))

/-- TAS.B @Rn: T tests the byte as read, the byte is written with bit 7 set, completion and frame. Derived from R60,
R68, R240. When the byte at R[n] is backed, not program text and holds b, TAS.B completes with T = 1 exactly when b
is 0, the byte there with bit 7 set and its other bits kept; no register, no other byte and no other bit of SR
changes. That the read and write are one step is decision D20 (log entry 24). -/
def Obligations.TestAndSetResult : Prop :=
  ∀ (s : State) (n : Reg) (b : Byte), ReadsByte s (s.reg n) b → s.isText (s.reg n) = false →
    ∃ t, exec (.tasb n) s = .next t ∧ HoldsByte t (s.reg n) (1#1 ++ b.extractLsb' 0 7) ∧
      t.sr = { s.sr with t := decide (b.toNat = 0) } ∧ StoreFrame (s.reg n) 1 [] s t

/-- SHAL, SHAR, SHLL and SHLR: code, exact result, T the bit shifted out, and frame. Stated by R266, R267, R268, R269.
In every state each completes: SHAL and SHLL double Rn modulo 2^32 with T its old top bit; SHAR halves it as a
signed number rounding down, SHLR as an unsigned one, with T its old low bit; nothing else but pc changes. Each has
the code the rule gives. -/
def Obligations.OneBitShiftResults : Prop :=
  ∀ (s : State) (n : Reg) (x : Word), x = s.reg n →
    WritesRegT (.shal n) s n (BitVec.ofNat 32 (2 * x.toNat)) (decide (2 ^ 31 ≤ x.toNat)) ∧
    encode (.shal n) = 0b0100#4 ++ n ++ 0b00100000#8 ∧
    WritesRegT (.shar n) s n (BitVec.ofInt 32 (x.toInt / 2)) (decide (x.toNat % 2 = 1)) ∧
    encode (.shar n) = 0b0100#4 ++ n ++ 0b00100001#8 ∧
    WritesRegT (.shll n) s n (BitVec.ofNat 32 (2 * x.toNat)) (decide (2 ^ 31 ≤ x.toNat)) ∧
    encode (.shll n) = 0b0100#4 ++ n ++ 0b00000000#8 ∧
    WritesRegT (.shlr n) s n (BitVec.ofNat 32 (x.toNat / 2)) (decide (x.toNat % 2 = 1)) ∧
    encode (.shlr n) = 0b0100#4 ++ n ++ 0b00000001#8

/-- ROTL, ROTR, ROTCL and ROTCR: code, result, T the bit rotated out, and frame. Stated by R262, R263, R264, R265. In
every state each completes: ROTL and ROTR rotate Rn by one bit with T the bit that went round; ROTCL rotates T:Rn as
33 bits to the left and ROTCR Rn:T to the right; nothing else but pc changes. Each has the code the rule gives. -/
def Obligations.RotateResults : Prop :=
  ∀ (s : State) (n : Reg) (x : Word) (c : BitVec 1), x = s.reg n → c = BitVec.ofBool s.sr.t →
    WritesRegT (.rotl n) s n (x.rotateLeft 1) (x.getLsbD 31) ∧ encode (.rotl n) = 0b0100#4 ++ n ++ 0b00000100#8 ∧
    WritesRegT (.rotr n) s n (x.rotateRight 1) (x.getLsbD 0) ∧ encode (.rotr n) = 0b0100#4 ++ n ++ 0b00000101#8 ∧
    WritesRegT (.rotcl n) s n (((c ++ x).rotateLeft 1).extractLsb' 0 32) (((c ++ x).rotateLeft 1).getLsbD 32) ∧
    encode (.rotcl n) = 0b0100#4 ++ n ++ 0b00100100#8 ∧
    WritesRegT (.rotcr n) s n (((x ++ c).rotateRight 1).extractLsb' 1 32) (((x ++ c).rotateRight 1).getLsbD 0) ∧
    encode (.rotcr n) = 0b0100#4 ++ n ++ 0b00100101#8

/-- SHLL2, SHLL8, SHLL16, SHLR2, SHLR8 and SHLR16: code, exact result and frame. Stated by R270, R271, R272, R273, R274,
R275. In every state the left shifts multiply Rn by 4, 256 or 65536 modulo 2^32 and the right shifts divide it by
them as an unsigned number; T, the rest of SR and everything else but pc are unchanged. Each has the code the rule
gives. -/
def Obligations.MultiBitShiftResults : Prop :=
  ∀ (s : State) (n : Reg) (x : Nat), x = (s.reg n).toNat →
    WritesReg (.shll2 n) s n (BitVec.ofNat 32 (x * 4)) ∧ encode (.shll2 n) = 0b0100#4 ++ n ++ 0b00001000#8 ∧
    WritesReg (.shlr2 n) s n (BitVec.ofNat 32 (x / 4)) ∧ encode (.shlr2 n) = 0b0100#4 ++ n ++ 0b00001001#8 ∧
    WritesReg (.shll8 n) s n (BitVec.ofNat 32 (x * 256)) ∧ encode (.shll8 n) = 0b0100#4 ++ n ++ 0b00011000#8 ∧
    WritesReg (.shlr8 n) s n (BitVec.ofNat 32 (x / 256)) ∧ encode (.shlr8 n) = 0b0100#4 ++ n ++ 0b00011001#8 ∧
    WritesReg (.shll16 n) s n (BitVec.ofNat 32 (x * 65536)) ∧ encode (.shll16 n) = 0b0100#4 ++ n ++ 0b00101000#8 ∧
    WritesReg (.shlr16 n) s n (BitVec.ofNat 32 (x / 65536)) ∧ encode (.shlr16 n) = 0b0100#4 ++ n ++ 0b00101001#8

/-- BF and BT: code, target or pc + 2, IllegalSlot in a delay slot, and frame. Derived from R292, R293, R295, R296,
R388. Outside a delay slot BF (T = 0) and BT (T = 1) complete at pc + 4 + 2·disp, sign-extended, and otherwise at pc
+ 2, with nothing pending and nothing else changed; in a delay slot both raise IllegalSlot (the spec's decision D4,
log entry 12). Each has the code the rule gives. -/
def Obligations.ConditionalBranchResults : Prop :=
  ∀ (s : State) (d : BitVec 8),
    (s.delay = none →
      (∃ t, exec (.bf d) s = .next t ∧ BranchFrame s t ∧ t.pr = s.pr ∧
        BranchedTo (if s.sr.t = false then s.pc + 4#32 + d.signExtend 32 * 2#32 else s.pc + 2#32) t) ∧
      (∃ t, exec (.bt d) s = .next t ∧ BranchFrame s t ∧ t.pr = s.pr ∧
        BranchedTo (if s.sr.t = true then s.pc + 4#32 + d.signExtend 32 * 2#32 else s.pc + 2#32) t)) ∧
    (s.delay ≠ none → exec (.bf d) s = .fault (.illegalSlot (encode (.bf d)) s.pc) ∧
      exec (.bt d) s = .fault (.illegalSlot (encode (.bt d)) s.pc)) ∧
    encode (.bf d) = 0b10001011#8 ++ d ∧ encode (.bt d) = 0b10001001#8 ++ d

/-- BRA, BSR, JMP, JSR and RTS: the pending target, PR, completion and frame. Derived from R291, R293, R297, R298, R299,
R300, R301. Outside a delay slot each completes with pc at its delay slot and its target pending: pc + 4 + 2·disp
for BRA and BSR, R[m] for JMP and JSR, PR for RTS; BSR and JSR put pc + 4 in PR, the others leave PR alone. No
general register, SR, GBR, VBR, MAC or memory changes. -/
def Obligations.DelayedBranchResults : Prop :=
  ∀ (s : State) (d : BitVec 12) (m : Reg), s.delay = none →
    (∃ t, exec (.bra d) s = .next t ∧ BranchFrame s t ∧ t.pr = s.pr ∧
      BranchPending (s.pc + 4#32 + d.signExtend 32 * 2#32) s t) ∧
    (∃ t, exec (.bsr d) s = .next t ∧ BranchFrame s t ∧ t.pr = s.pc + 4#32 ∧
      BranchPending (s.pc + 4#32 + d.signExtend 32 * 2#32) s t) ∧
    (∃ t, exec (.jmp m) s = .next t ∧ BranchFrame s t ∧ t.pr = s.pr ∧ BranchPending (s.reg m) s t) ∧
    (∃ t, exec (.jsr m) s = .next t ∧ BranchFrame s t ∧ t.pr = s.pc + 4#32 ∧ BranchPending (s.reg m) s t) ∧
    (∃ t, exec .rts s = .next t ∧ BranchFrame s t ∧ t.pr = s.pr ∧ BranchPending s.pr s t)

/-- CLRT, SETT, NOP and CLRMAC: code, effect and frame. Stated by R329, R330, R343, R345. In every state CLRT completes
with T = 0, SETT with T = 1, NOP with nothing but pc changed, CLRMAC with MACH and MACL zero; nothing else changes.
Each has the code the rule gives. -/
def Obligations.FlagAndMacInstructions : Prop :=
  ∀ s : State,
    WritesT .clrt s false ∧ encode .clrt = 0b0000000000001000#16 ∧
    WritesT .sett s true ∧ encode .sett = 0b0000000000011000#16 ∧
    WritesSr .nop s s.sr ∧ encode .nop = 0b0000000000001001#16 ∧
    Moves .clrmac s (fun t => t.mach = 0#10 ∧ t.macl = 0#32 ∧ t.sr = s.sr ∧ t.pr = s.pr ∧ SameBases s t) ∧
    encode .clrmac = 0b0000000000101000#16

/-- LDC Rm,SR/GBR/VBR and LDS Rm,MACH/MACL/PR: code, result and frame. Stated by R331, R332, R333, R337, R338, R339. In
every state each completes with Rm in the register it names: SR keeps Rm & 0x3F3, MACH the low 10 bits of Rm, the
others all 32 bits; no other register, SR (except by LDC Rm,SR) and no memory changes. Each has the code the rule
gives. -/
def Obligations.LoadSpecialRegisterResults : Prop :=
  ∀ (s : State) (m : Reg),
    Moves (.ldcSr m) s (fun t => t.sr.toWord = s.reg m &&& 0x000003F3#32 ∧ SameSystem s t) ∧
    encode (.ldcSr m) = 0b0100#4 ++ m ++ 0b00001110#8 ∧
    Moves (.ldcGbr m) s (fun t => t.gbr = s.reg m ∧ t.sr = s.sr ∧ t.vbr = s.vbr ∧ SameMac s t ∧ t.pr = s.pr) ∧
    encode (.ldcGbr m) = 0b0100#4 ++ m ++ 0b00011110#8 ∧
    Moves (.ldcVbr m) s (fun t => t.vbr = s.reg m ∧ t.sr = s.sr ∧ t.gbr = s.gbr ∧ SameMac s t ∧ t.pr = s.pr) ∧
    encode (.ldcVbr m) = 0b0100#4 ++ m ++ 0b00101110#8 ∧
    Moves (.ldsMach m) s (fun t => t.mach.toNat = (s.reg m).toNat % 1024 ∧ t.sr = s.sr ∧ SameBases s t ∧
      t.macl = s.macl ∧ t.pr = s.pr) ∧ encode (.ldsMach m) = 0b0100#4 ++ m ++ 0b00001010#8 ∧
    Moves (.ldsMacl m) s (fun t => t.macl = s.reg m ∧ t.sr = s.sr ∧ SameBases s t ∧ t.mach = s.mach ∧ t.pr = s.pr) ∧
    encode (.ldsMacl m) = 0b0100#4 ++ m ++ 0b00011010#8 ∧
    Moves (.ldsPr m) s (fun t => t.pr = s.reg m ∧ t.sr = s.sr ∧ SameBases s t ∧ SameMac s t) ∧
    encode (.ldsPr m) = 0b0100#4 ++ m ++ 0b00101010#8

/-- LDC.L @Rm+ to SR/GBR/VBR and LDS.L @Rm+ to MACH/MACL/PR: result, increment, completion and frame. Derived from R325,
R334, R335, R336, R340, R341, R342. When R[m] is a multiple of 4 and the backed longword there holds v, each
completes with v in the register it names (masked with 0x3F3 for SR, its low 10 bits for MACH) and R[m] incremented
by 4; nothing else but pc changes. That the increment comes after the read is decision D24 (log entry 26). -/
def Obligations.PopSpecialRegisterResults : Prop :=
  ∀ (s : State) (m : Reg) (v : Word), ReadsLong s (s.reg m) v →
    PopsLong (.ldclSr m) s m (fun t => t.sr.toWord = v &&& 0x000003F3#32 ∧ SameSystem s t) ∧
    PopsLong (.ldclGbr m) s m (fun t => t.gbr = v ∧ t.sr = s.sr ∧ t.vbr = s.vbr ∧ SameMac s t ∧ t.pr = s.pr) ∧
    PopsLong (.ldclVbr m) s m (fun t => t.vbr = v ∧ t.sr = s.sr ∧ t.gbr = s.gbr ∧ SameMac s t ∧ t.pr = s.pr) ∧
    PopsLong (.ldslMach m) s m (fun t => t.mach.toNat = v.toNat % 1024 ∧ t.sr = s.sr ∧ SameBases s t ∧
      t.macl = s.macl ∧ t.pr = s.pr) ∧
    PopsLong (.ldslMacl m) s m (fun t => t.macl = v ∧ t.sr = s.sr ∧ SameBases s t ∧ t.mach = s.mach ∧ t.pr = s.pr) ∧
    PopsLong (.ldslPr m) s m (fun t => t.pr = v ∧ t.sr = s.sr ∧ SameBases s t ∧ SameMac s t)

/-- STC SR/GBR/VBR,Rn and STS MACH/MACL/PR,Rn: code, result and frame. Stated by R347, R348, R349, R353, R354, R355. In
every state each completes with the register it names in Rn: SR with 0 in its reserved bits, MACH sign-extended from
10 bits, the others as they are; nothing else but pc changes. Each has the code the rule gives. -/
def Obligations.StoreSpecialRegisterResults : Prop :=
  ∀ (s : State) (n : Reg),
    (∃ v, WritesReg (.stcSr n) s n v ∧ v &&& 0x000003F3#32 = v ∧ v.getLsbD 0 = s.sr.t ∧ v.getLsbD 1 = s.sr.s ∧
      v.extractLsb' 4 4 = s.sr.i ∧ v.getLsbD 8 = s.sr.q ∧ v.getLsbD 9 = s.sr.m) ∧
    encode (.stcSr n) = 0b0000#4 ++ n ++ 0b00000010#8 ∧
    WritesReg (.stcGbr n) s n s.gbr ∧ encode (.stcGbr n) = 0b0000#4 ++ n ++ 0b00010010#8 ∧
    WritesReg (.stcVbr n) s n s.vbr ∧ encode (.stcVbr n) = 0b0000#4 ++ n ++ 0b00100010#8 ∧
    WritesReg (.stsMach n) s n (BitVec.ofInt 32 s.mach.toInt) ∧ encode (.stsMach n) = 0b0000#4 ++ n ++ 0b00001010#8 ∧
    WritesReg (.stsMacl n) s n s.macl ∧ encode (.stsMacl n) = 0b0000#4 ++ n ++ 0b00011010#8 ∧
    WritesReg (.stsPr n) s n s.pr ∧ encode (.stsPr n) = 0b0000#4 ++ n ++ 0b00101010#8

/-- STC.L SR/GBR/VBR,@-Rn and STS.L MACH/MACL/PR,@-Rn: the longword stored, the decrement, completion and frame. Derived
from R325, R350, R351, R352, R356, R357, R358. When R[n] - 4 is a multiple of 4 whose bytes are backed and not
program text, each completes with the register it names (SR with 0 in the reserved bits, MACH sign-extended) stored
big-endian there and R[n] decremented by 4; nothing else but pc changes. -/
def Obligations.PushSpecialRegisterResults : Prop :=
  ∀ (s : State) (n : Reg), Storable s (s.reg n - 4#32) 4 →
    PushesLong (.stclSr n) s n s.sr.toWord ∧ PushesLong (.stclGbr n) s n s.gbr ∧
    PushesLong (.stclVbr n) s n s.vbr ∧ PushesLong (.stslMach n) s n (BitVec.ofInt 32 s.mach.toInt) ∧
    PushesLong (.stslMacl n) s n s.macl ∧ PushesLong (.stslPr n) s n s.pr

/-- RTE: pc and SR popped, the delayed branch, completion and frame. Derived from R344, R383, R390. Outside a delay
slot, when the longwords at R15 and R15 + 4 can be read and hold a pc and an SR, RTE completes with SR the popped
value & 0x3F3, R15 incremented by 8, and a delayed branch to the popped pc pending; no other register and no memory
changes. That the slot runs under the restored SR is decision D12 (log entry 19). -/
def Obligations.ReturnFromExceptionResult : Prop :=
  ∀ (s : State) (newPc newSr : Word), s.delay = none → ReadsLong s (s.reg 15#4) newPc →
    ReadsLong s (s.reg 15#4 + 4#32) newSr →
    ∃ t, exec .rte s = .next t ∧ t.sr.toWord = newSr &&& 0x000003F3#32 ∧ t.reg 15#4 = s.reg 15#4 + 8#32 ∧
      BranchPending newPc s t ∧ SameRegs [15#4] s t ∧ SameSystem s t ∧ SameMem s t ∧ SameRun s t

/-- TRAPA #imm: the frame pushed, the handler address read from the vector table, completion and frame. Derived from
R359, R383, R384. Outside a delay slot, when R15 - 4 and R15 - 8 can be stored to and the longword at VBR + 4·imm
can be read (after the two pushes), TRAPA completes with SR at R15 - 4, pc + 2 at R15 - 8, R15 decremented by 8 and
pc at the longword read, with no delayed branch pending; SR, every other register and every other byte of memory are
unchanged. Push order and the unchanged SR are decision D13 (log entry 20). -/
def Obligations.TrapEntryResult : Prop :=
  ∀ (s : State) (i : BitVec 8) (target : Word), s.delay = none →
    Storable s (s.reg 15#4 - 4#32) 4 → Storable s (s.reg 15#4 - 8#32) 4 →
    VectorReads s (vectorAddress s i) (s.reg 15#4) s.sr.toWord (s.pc + 2#32) target →
    ∃ t, exec (.trapa i) s = .next t ∧ EntersException s (s.pc + 2#32) target t ∧ t.sr = s.sr ∧
      t.status = s.status ∧ t.interrupts = s.interrupts

/-- RTE undoes TRAPA: it returns to the instruction after the trap with SR and R15 as they were. Derived from R344,
R359, R383, R390. Let TRAPA complete in s, and let u be any later state in which R15 is where the trap left it, the
eight bytes of its frame read as the trap left them and are still backed, and no delayed branch is pending. Then RTE
completes in u with SR the SR of s, R15 the R15 of s, and a delayed branch to the instruction after the TRAPA
pending; the other registers and memory are those of u. -/
def Obligations.TrapThenReturnRestores : Prop :=
  ∀ (s t u : State) (i : BitVec 8), exec (.trapa i) s = .next t → u.reg 15#4 = t.reg 15#4 →
    (∀ b ∈ span (t.reg 15#4) 8, u.byteAt b = t.byteAt b ∧ u.backed b = true) → u.delay = none →
    ∃ w, exec .rte u = .next w ∧ w.sr = s.sr ∧ w.reg 15#4 = s.reg 15#4 ∧ BranchPending (s.pc + 2#32) u w ∧
      SameRegs [15#4] u w ∧ SameSystem u w ∧ SameMem u w

/-- SLEEP: the machine falls asleep with pc moved on, and stays so without an interrupt. Derived from R346, R41. In
every state SLEEP completes with the status asleep and pc moved on (in a delay slot, to the pending target); no
register, SR, memory or parameter changes. A sleeping machine that accepts no interrupt has no step (decision D17,
log entry 15). -/
def Obligations.SleepResult : Prop :=
  (∀ s : State, ∃ t, exec .sleep s = .next t ∧ t.status = .asleep ∧ Advanced s t ∧ SameRegs [] s t ∧ t.sr = s.sr ∧
    SameSystem s t ∧ SameMem s t ∧ SameParameters s t ∧ t.interrupts = s.interrupts) ∧
  ∀ s : State, s.status = .asleep → (s.delay ≠ none ∨ ∀ r ∈ s.interrupts, r.level.val ≤ s.sr.i.toNat) →
    step s = .fault .asleepForever

/-- An interrupt request above the mask is accepted between instructions, with the frame of a trap. Derived from R346,
R383, R384, R395. In a state that is asleep, or running with pc not END_PC, with no delayed branch pending, whose
first pending request with a level above the mask is r: when the frame can be pushed and the vector entry read, the
step enters the exception with pc itself as the return address, sets the mask to the level of r (1111 for level 16)
and no other bit of SR, makes the machine run, and drops that request only. Acceptance is the model's reading of
R395 (decision D5, log entry 14). -/
def Obligations.InterruptAcceptance : Prop :=
  ∀ (s : State) (before after : List IntRequest) (r : IntRequest) (target : Word),
    (s.status = .asleep ∨ s.status = .running ∧ s.pc ≠ s.endPc) → s.delay = none →
    s.interrupts = before ++ r :: after → (∀ q ∈ before, q.level.val ≤ s.sr.i.toNat) → s.sr.i.toNat < r.level.val →
    Storable s (s.reg 15#4 - 4#32) 4 → Storable s (s.reg 15#4 - 8#32) 4 →
    VectorReads s (vectorAddress s r.vector) (s.reg 15#4) s.sr.toWord s.pc target →
    ∃ t, step s = .next t ∧ EntersException s s.pc target t ∧ t.status = .running ∧
      t.interrupts = before ++ after ∧ t.sr.i.toNat = min 15 r.level.val ∧ t.sr = { s.sr with i := t.sr.i }
end

