-- ==== Sys2Proof/Laws/Encoding.lean ====
section
/-! SUPPORT. The fields of a code written as a concatenation, one lemma per field and layout (spec/30_encoding.md R82): what
the decoder reads from what the encoder writes. -/

namespace Sys2Proof

/-! ### Layout 4 ++ 4 ++ 4 ++ 4 -/

@[simp] theorem topNibble_nibbles (a : BitVec 4) (b : BitVec 4) (c : BitVec 4) (d : BitVec 4) : topNibble (a ++ b ++ c ++ d) = a := by
  unfold topNibble
  rw [BitVec.extractLsb'_append_eq_of_le (by decide), BitVec.extractLsb'_append_eq_of_le (by decide), BitVec.extractLsb'_append_eq_of_le (by decide)]
  simp

@[simp] theorem fieldHi_nibbles (a : BitVec 4) (b : BitVec 4) (c : BitVec 4) (d : BitVec 4) : fieldHi (a ++ b ++ c ++ d) = b := by
  unfold fieldHi
  rw [BitVec.extractLsb'_append_eq_of_le (by decide), BitVec.extractLsb'_append_eq_of_le (by decide), BitVec.extractLsb'_append_eq_of_add_le (by decide)]
  simp

@[simp] theorem fieldLo_nibbles (a : BitVec 4) (b : BitVec 4) (c : BitVec 4) (d : BitVec 4) : fieldLo (a ++ b ++ c ++ d) = c := by
  unfold fieldLo
  rw [BitVec.extractLsb'_append_eq_of_le (by decide), BitVec.extractLsb'_append_eq_of_add_le (by decide)]
  simp

@[simp] theorem field4_nibbles (a : BitVec 4) (b : BitVec 4) (c : BitVec 4) (d : BitVec 4) : field4 (a ++ b ++ c ++ d) = d := by
  unfold field4
  rw [BitVec.extractLsb'_append_eq_of_add_le (by decide)]
  simp

@[simp] theorem field8_nibbles (a : BitVec 4) (b : BitVec 4) (c : BitVec 4) (d : BitVec 4) : field8 (a ++ b ++ c ++ d) = c ++ d := by
  unfold field8
  ext k hk
  simp only [BitVec.getElem_extractLsb', BitVec.getLsbD_append, Nat.zero_add]
  grind

@[simp] theorem field12_nibbles (a : BitVec 4) (b : BitVec 4) (c : BitVec 4) (d : BitVec 4) : field12 (a ++ b ++ c ++ d) = b ++ c ++ d := by
  unfold field12
  ext k hk
  simp only [BitVec.getElem_extractLsb', BitVec.getLsbD_append, Nat.zero_add]
  grind

/-! ### Layout 4 ++ 4 ++ 8 -/

@[simp] theorem topNibble_nibblesByte (a : BitVec 4) (b : BitVec 4) (c : BitVec 8) : topNibble (a ++ b ++ c) = a := by
  unfold topNibble
  rw [BitVec.extractLsb'_append_eq_of_le (by decide), BitVec.extractLsb'_append_eq_of_le (by decide)]
  simp

@[simp] theorem fieldHi_nibblesByte (a : BitVec 4) (b : BitVec 4) (c : BitVec 8) : fieldHi (a ++ b ++ c) = b := by
  unfold fieldHi
  rw [BitVec.extractLsb'_append_eq_of_le (by decide), BitVec.extractLsb'_append_eq_of_add_le (by decide)]
  simp

@[simp] theorem fieldLo_nibblesByte (a : BitVec 4) (b : BitVec 4) (c : BitVec 8) : fieldLo (a ++ b ++ c) = c.extractLsb' 4 4 := by
  unfold fieldLo
  rw [BitVec.extractLsb'_append_eq_of_add_le (by decide)]

@[simp] theorem field4_nibblesByte (a : BitVec 4) (b : BitVec 4) (c : BitVec 8) : field4 (a ++ b ++ c) = c.extractLsb' 0 4 := by
  unfold field4
  rw [BitVec.extractLsb'_append_eq_of_add_le (by decide)]

@[simp] theorem field8_nibblesByte (a : BitVec 4) (b : BitVec 4) (c : BitVec 8) : field8 (a ++ b ++ c) = c := by
  unfold field8
  rw [BitVec.extractLsb'_append_eq_of_add_le (by decide)]
  simp

@[simp] theorem field12_nibblesByte (a : BitVec 4) (b : BitVec 4) (c : BitVec 8) : field12 (a ++ b ++ c) = b ++ c := by
  unfold field12
  ext k hk
  simp only [BitVec.getElem_extractLsb', BitVec.getLsbD_append, Nat.zero_add]
  grind

/-! ### Layout 8 ++ 8 -/

@[simp] theorem topNibble_bytes (a : BitVec 8) (b : BitVec 8) : topNibble (a ++ b) = a.extractLsb' 4 4 := by
  unfold topNibble
  rw [BitVec.extractLsb'_append_eq_of_le (by decide)]

@[simp] theorem fieldHi_bytes (a : BitVec 8) (b : BitVec 8) : fieldHi (a ++ b) = a.extractLsb' 0 4 := by
  unfold fieldHi
  rw [BitVec.extractLsb'_append_eq_of_le (by decide)]

@[simp] theorem fieldLo_bytes (a : BitVec 8) (b : BitVec 8) : fieldLo (a ++ b) = b.extractLsb' 4 4 := by
  unfold fieldLo
  rw [BitVec.extractLsb'_append_eq_of_add_le (by decide)]

@[simp] theorem field4_bytes (a : BitVec 8) (b : BitVec 8) : field4 (a ++ b) = b.extractLsb' 0 4 := by
  unfold field4
  rw [BitVec.extractLsb'_append_eq_of_add_le (by decide)]

@[simp] theorem field8_bytes (a : BitVec 8) (b : BitVec 8) : field8 (a ++ b) = b := by
  unfold field8
  rw [BitVec.extractLsb'_append_eq_of_add_le (by decide)]
  simp

/-! ### Layout 8 ++ 4 ++ 4 -/

@[simp] theorem topNibble_byteNibbles (a : BitVec 8) (b : BitVec 4) (c : BitVec 4) : topNibble (a ++ b ++ c) = a.extractLsb' 4 4 := by
  unfold topNibble
  rw [BitVec.extractLsb'_append_eq_of_le (by decide), BitVec.extractLsb'_append_eq_of_le (by decide)]

@[simp] theorem fieldHi_byteNibbles (a : BitVec 8) (b : BitVec 4) (c : BitVec 4) : fieldHi (a ++ b ++ c) = a.extractLsb' 0 4 := by
  unfold fieldHi
  rw [BitVec.extractLsb'_append_eq_of_le (by decide), BitVec.extractLsb'_append_eq_of_le (by decide)]

@[simp] theorem fieldLo_byteNibbles (a : BitVec 8) (b : BitVec 4) (c : BitVec 4) : fieldLo (a ++ b ++ c) = b := by
  unfold fieldLo
  rw [BitVec.extractLsb'_append_eq_of_le (by decide), BitVec.extractLsb'_append_eq_of_add_le (by decide)]
  simp

@[simp] theorem field4_byteNibbles (a : BitVec 8) (b : BitVec 4) (c : BitVec 4) : field4 (a ++ b ++ c) = c := by
  unfold field4
  rw [BitVec.extractLsb'_append_eq_of_add_le (by decide)]
  simp

@[simp] theorem field8_byteNibbles (a : BitVec 8) (b : BitVec 4) (c : BitVec 4) : field8 (a ++ b ++ c) = b ++ c := by
  unfold field8
  ext k hk
  simp only [BitVec.getElem_extractLsb', BitVec.getLsbD_append, Nat.zero_add]
  grind

/-! ### Layout 4 ++ 12 -/

@[simp] theorem topNibble_nibbleRest (a : BitVec 4) (b : BitVec 12) : topNibble (a ++ b) = a := by
  unfold topNibble
  rw [BitVec.extractLsb'_append_eq_of_le (by decide)]
  simp

@[simp] theorem fieldHi_nibbleRest (a : BitVec 4) (b : BitVec 12) : fieldHi (a ++ b) = b.extractLsb' 8 4 := by
  unfold fieldHi
  rw [BitVec.extractLsb'_append_eq_of_add_le (by decide)]

@[simp] theorem fieldLo_nibbleRest (a : BitVec 4) (b : BitVec 12) : fieldLo (a ++ b) = b.extractLsb' 4 4 := by
  unfold fieldLo
  rw [BitVec.extractLsb'_append_eq_of_add_le (by decide)]

@[simp] theorem field4_nibbleRest (a : BitVec 4) (b : BitVec 12) : field4 (a ++ b) = b.extractLsb' 0 4 := by
  unfold field4
  rw [BitVec.extractLsb'_append_eq_of_add_le (by decide)]

@[simp] theorem field8_nibbleRest (a : BitVec 4) (b : BitVec 12) : field8 (a ++ b) = b.extractLsb' 0 8 := by
  unfold field8
  rw [BitVec.extractLsb'_append_eq_of_add_le (by decide)]

@[simp] theorem field12_nibbleRest (a : BitVec 4) (b : BitVec 12) : field12 (a ++ b) = b := by
  unfold field12
  rw [BitVec.extractLsb'_append_eq_of_add_le (by decide)]
  simp

/-! ### Codes under the masks of the opcode table -/

theorem and_all4 (a : BitVec 4) : a &&& 15#4 = a := BitVec.and_allOnes

theorem and_all8 (a : BitVec 8) : a &&& 255#8 = a := BitVec.and_allOnes

theorem and_nibbles (a b c d e f g h : BitVec 4) :
    (a ++ b ++ c ++ d) &&& (e ++ f ++ g ++ h) = (a &&& e) ++ (b &&& f) ++ (c &&& g) ++ (d &&& h) := by
  rw [BitVec.and_append, BitVec.and_append, BitVec.and_append]

theorem and_nibblesByte (a b e f : BitVec 4) (c g : BitVec 8) :
    (a ++ b ++ c) &&& (e ++ f ++ g) = (a &&& e) ++ (b &&& f) ++ (c &&& g) := by
  rw [BitVec.and_append, BitVec.and_append]

theorem and_bytes (a b e f : BitVec 8) : (a ++ b) &&& (e ++ f) = (a &&& e) ++ (b &&& f) := by
  rw [BitVec.and_append]

theorem and_byteNibbles (a e : BitVec 8) (b c f g : BitVec 4) :
    (a ++ b ++ c) &&& (e ++ f ++ g) = (a &&& e) ++ (b &&& f) ++ (c &&& g) := by
  rw [BitVec.and_append, BitVec.and_append]

theorem and_nibbleRest (a e : BitVec 4) (b f : BitVec 12) : (a ++ b) &&& (e ++ f) = (a &&& e) ++ (b &&& f) := by
  rw [BitVec.and_append]

/-- Layout `nm`: bits 15 to 12 and 3 to 0 are the opcode. -/
theorem and_maskNm (a b c d : BitVec 4) : (a ++ b ++ c ++ d) &&& 0xF00F#16 = a ++ 0#4 ++ 0#4 ++ d := by
  simpa [and_all4] using and_nibbles a b c d 0xF 0 0 0xF

/-- Layouts `n` and `m`: all but bits 11 to 8 is the opcode. -/
theorem and_maskN (a b c d : BitVec 4) : (a ++ b ++ c ++ d) &&& 0xF0FF#16 = a ++ 0#4 ++ c ++ d := by
  simpa [and_all4] using and_nibbles a b c d 0xF 0 0xF 0xF

/-- Layout `nmd4`: bits 15 to 12 are the opcode. -/
theorem and_maskNmd (a b c d : BitVec 4) : (a ++ b ++ c ++ d) &&& 0xF000#16 = a ++ 0#4 ++ 0#4 ++ 0#4 := by
  simpa [and_all4] using and_nibbles a b c d 0xF 0 0 0

/-- Layouts `nd8` and `ni8`: bits 15 to 12 are the opcode. -/
theorem and_maskNi (a b : BitVec 4) (c : BitVec 8) : (a ++ b ++ c) &&& 0xF000#16 = a ++ 0#4 ++ 0#8 := by
  simpa [and_all4] using and_nibblesByte a b 0xF 0 c 0

/-- Layouts `i8` and `d8`: bits 15 to 8 are the opcode. -/
theorem and_maskI (a b : BitVec 8) : (a ++ b) &&& 0xFF00#16 = a ++ 0#8 := by
  simpa [and_all8] using and_bytes a b 0xFF 0

/-- Layouts `md4` and `nd4`: bits 15 to 8 are the opcode. -/
theorem and_maskRd (a : BitVec 8) (b c : BitVec 4) : (a ++ b ++ c) &&& 0xFF00#16 = a ++ 0#4 ++ 0#4 := by
  simpa [and_all8] using and_byteNibbles a 0xFF b c 0 0

/-- Layout `d12`: bits 15 to 12 are the opcode. -/
theorem and_maskD (a : BitVec 4) (b : BitVec 12) : (a ++ b) &&& 0xF000#16 = a ++ 0#12 := by
  simpa [and_all4] using and_nibbleRest a 0xF b 0

end Sys2Proof
end

