-- ==== Sys2Proof/Laws/State.lean ====
section
/-! SUPPORT. The state's own lemmas: every field of every update, and reading a register or a byte after an update. A later
proof cites these and unfolds no record update. -/

namespace Sys2Proof.Machine

/-! ### setReg -/

@[simp] theorem State.setReg_sr (s : State) (n : Reg) (v : Word) : (s.setReg n v).sr = s.sr := rfl
@[simp] theorem State.setReg_gbr (s : State) (n : Reg) (v : Word) : (s.setReg n v).gbr = s.gbr := rfl
@[simp] theorem State.setReg_vbr (s : State) (n : Reg) (v : Word) : (s.setReg n v).vbr = s.vbr := rfl
@[simp] theorem State.setReg_mach (s : State) (n : Reg) (v : Word) : (s.setReg n v).mach = s.mach := rfl
@[simp] theorem State.setReg_macl (s : State) (n : Reg) (v : Word) : (s.setReg n v).macl = s.macl := rfl
@[simp] theorem State.setReg_pr (s : State) (n : Reg) (v : Word) : (s.setReg n v).pr = s.pr := rfl
@[simp] theorem State.setReg_pc (s : State) (n : Reg) (v : Word) : (s.setReg n v).pc = s.pc := rfl
@[simp] theorem State.setReg_delay (s : State) (n : Reg) (v : Word) : (s.setReg n v).delay = s.delay := rfl
@[simp] theorem State.setReg_status (s : State) (n : Reg) (v : Word) : (s.setReg n v).status = s.status := rfl
@[simp] theorem State.setReg_mem (s : State) (n : Reg) (v : Word) : (s.setReg n v).mem = s.mem := rfl
@[simp] theorem State.setReg_memMap (s : State) (n : Reg) (v : Word) : (s.setReg n v).memMap = s.memMap := rfl
@[simp] theorem State.setReg_endPc (s : State) (n : Reg) (v : Word) : (s.setReg n v).endPc = s.endPc := rfl
@[simp] theorem State.setReg_interrupts (s : State) (n : Reg) (v : Word) :
    (s.setReg n v).interrupts = s.interrupts := rfl
@[simp] theorem State.setReg_addressErrorVector (s : State) (n : Reg) (v : Word) :
    (s.setReg n v).addressErrorVector = s.addressErrorVector := rfl
@[simp] theorem State.setReg_illegalInstructionVector (s : State) (n : Reg) (v : Word) :
    (s.setReg n v).illegalInstructionVector = s.illegalInstructionVector := rfl
@[simp] theorem State.setReg_illegalSlotVector (s : State) (n : Reg) (v : Word) :
    (s.setReg n v).illegalSlotVector = s.illegalSlotVector := rfl

/-! ### putByte -/

@[simp] theorem State.putByte_regs (s : State) (a : Word) (v : Byte) : (s.putByte a v).regs = s.regs := rfl
@[simp] theorem State.putByte_sr (s : State) (a : Word) (v : Byte) : (s.putByte a v).sr = s.sr := rfl
@[simp] theorem State.putByte_gbr (s : State) (a : Word) (v : Byte) : (s.putByte a v).gbr = s.gbr := rfl
@[simp] theorem State.putByte_vbr (s : State) (a : Word) (v : Byte) : (s.putByte a v).vbr = s.vbr := rfl
@[simp] theorem State.putByte_mach (s : State) (a : Word) (v : Byte) : (s.putByte a v).mach = s.mach := rfl
@[simp] theorem State.putByte_macl (s : State) (a : Word) (v : Byte) : (s.putByte a v).macl = s.macl := rfl
@[simp] theorem State.putByte_pr (s : State) (a : Word) (v : Byte) : (s.putByte a v).pr = s.pr := rfl
@[simp] theorem State.putByte_pc (s : State) (a : Word) (v : Byte) : (s.putByte a v).pc = s.pc := rfl
@[simp] theorem State.putByte_delay (s : State) (a : Word) (v : Byte) : (s.putByte a v).delay = s.delay := rfl
@[simp] theorem State.putByte_status (s : State) (a : Word) (v : Byte) : (s.putByte a v).status = s.status := rfl
@[simp] theorem State.putByte_memMap (s : State) (a : Word) (v : Byte) : (s.putByte a v).memMap = s.memMap := rfl
@[simp] theorem State.putByte_endPc (s : State) (a : Word) (v : Byte) : (s.putByte a v).endPc = s.endPc := rfl
@[simp] theorem State.putByte_interrupts (s : State) (a : Word) (v : Byte) :
    (s.putByte a v).interrupts = s.interrupts := rfl
@[simp] theorem State.putByte_addressErrorVector (s : State) (a : Word) (v : Byte) :
    (s.putByte a v).addressErrorVector = s.addressErrorVector := rfl
@[simp] theorem State.putByte_illegalInstructionVector (s : State) (a : Word) (v : Byte) :
    (s.putByte a v).illegalInstructionVector = s.illegalInstructionVector := rfl
@[simp] theorem State.putByte_illegalSlotVector (s : State) (a : Word) (v : Byte) :
    (s.putByte a v).illegalSlotVector = s.illegalSlotVector := rfl

/-! ### putHalf -/

@[simp] theorem State.putHalf_regs (s : State) (a : Word) (v : Half) : (s.putHalf a v).regs = s.regs := rfl
@[simp] theorem State.putHalf_sr (s : State) (a : Word) (v : Half) : (s.putHalf a v).sr = s.sr := rfl
@[simp] theorem State.putHalf_gbr (s : State) (a : Word) (v : Half) : (s.putHalf a v).gbr = s.gbr := rfl
@[simp] theorem State.putHalf_vbr (s : State) (a : Word) (v : Half) : (s.putHalf a v).vbr = s.vbr := rfl
@[simp] theorem State.putHalf_mach (s : State) (a : Word) (v : Half) : (s.putHalf a v).mach = s.mach := rfl
@[simp] theorem State.putHalf_macl (s : State) (a : Word) (v : Half) : (s.putHalf a v).macl = s.macl := rfl
@[simp] theorem State.putHalf_pr (s : State) (a : Word) (v : Half) : (s.putHalf a v).pr = s.pr := rfl
@[simp] theorem State.putHalf_pc (s : State) (a : Word) (v : Half) : (s.putHalf a v).pc = s.pc := rfl
@[simp] theorem State.putHalf_delay (s : State) (a : Word) (v : Half) : (s.putHalf a v).delay = s.delay := rfl
@[simp] theorem State.putHalf_status (s : State) (a : Word) (v : Half) : (s.putHalf a v).status = s.status := rfl
@[simp] theorem State.putHalf_memMap (s : State) (a : Word) (v : Half) : (s.putHalf a v).memMap = s.memMap := rfl
@[simp] theorem State.putHalf_endPc (s : State) (a : Word) (v : Half) : (s.putHalf a v).endPc = s.endPc := rfl
@[simp] theorem State.putHalf_interrupts (s : State) (a : Word) (v : Half) :
    (s.putHalf a v).interrupts = s.interrupts := rfl
@[simp] theorem State.putHalf_addressErrorVector (s : State) (a : Word) (v : Half) :
    (s.putHalf a v).addressErrorVector = s.addressErrorVector := rfl
@[simp] theorem State.putHalf_illegalInstructionVector (s : State) (a : Word) (v : Half) :
    (s.putHalf a v).illegalInstructionVector = s.illegalInstructionVector := rfl
@[simp] theorem State.putHalf_illegalSlotVector (s : State) (a : Word) (v : Half) :
    (s.putHalf a v).illegalSlotVector = s.illegalSlotVector := rfl

/-! ### putLong -/

@[simp] theorem State.putLong_regs (s : State) (a : Word) (v : Word) : (s.putLong a v).regs = s.regs := rfl
@[simp] theorem State.putLong_sr (s : State) (a : Word) (v : Word) : (s.putLong a v).sr = s.sr := rfl
@[simp] theorem State.putLong_gbr (s : State) (a : Word) (v : Word) : (s.putLong a v).gbr = s.gbr := rfl
@[simp] theorem State.putLong_vbr (s : State) (a : Word) (v : Word) : (s.putLong a v).vbr = s.vbr := rfl
@[simp] theorem State.putLong_mach (s : State) (a : Word) (v : Word) : (s.putLong a v).mach = s.mach := rfl
@[simp] theorem State.putLong_macl (s : State) (a : Word) (v : Word) : (s.putLong a v).macl = s.macl := rfl
@[simp] theorem State.putLong_pr (s : State) (a : Word) (v : Word) : (s.putLong a v).pr = s.pr := rfl
@[simp] theorem State.putLong_pc (s : State) (a : Word) (v : Word) : (s.putLong a v).pc = s.pc := rfl
@[simp] theorem State.putLong_delay (s : State) (a : Word) (v : Word) : (s.putLong a v).delay = s.delay := rfl
@[simp] theorem State.putLong_status (s : State) (a : Word) (v : Word) : (s.putLong a v).status = s.status := rfl
@[simp] theorem State.putLong_memMap (s : State) (a : Word) (v : Word) : (s.putLong a v).memMap = s.memMap := rfl
@[simp] theorem State.putLong_endPc (s : State) (a : Word) (v : Word) : (s.putLong a v).endPc = s.endPc := rfl
@[simp] theorem State.putLong_interrupts (s : State) (a : Word) (v : Word) :
    (s.putLong a v).interrupts = s.interrupts := rfl
@[simp] theorem State.putLong_addressErrorVector (s : State) (a : Word) (v : Word) :
    (s.putLong a v).addressErrorVector = s.addressErrorVector := rfl
@[simp] theorem State.putLong_illegalInstructionVector (s : State) (a : Word) (v : Word) :
    (s.putLong a v).illegalInstructionVector = s.illegalInstructionVector := rfl
@[simp] theorem State.putLong_illegalSlotVector (s : State) (a : Word) (v : Word) :
    (s.putLong a v).illegalSlotVector = s.illegalSlotVector := rfl

/-! ### branchDelayed -/

@[simp] theorem State.branchDelayed_regs (s : State) (target : Word) : (s.branchDelayed target).regs = s.regs := rfl
@[simp] theorem State.branchDelayed_sr (s : State) (target : Word) : (s.branchDelayed target).sr = s.sr := rfl
@[simp] theorem State.branchDelayed_gbr (s : State) (target : Word) : (s.branchDelayed target).gbr = s.gbr := rfl
@[simp] theorem State.branchDelayed_vbr (s : State) (target : Word) : (s.branchDelayed target).vbr = s.vbr := rfl
@[simp] theorem State.branchDelayed_mach (s : State) (target : Word) : (s.branchDelayed target).mach = s.mach := rfl
@[simp] theorem State.branchDelayed_macl (s : State) (target : Word) : (s.branchDelayed target).macl = s.macl := rfl
@[simp] theorem State.branchDelayed_pr (s : State) (target : Word) : (s.branchDelayed target).pr = s.pr := rfl
@[simp] theorem State.branchDelayed_status (s : State) (target : Word) :
    (s.branchDelayed target).status = s.status := rfl
@[simp] theorem State.branchDelayed_mem (s : State) (target : Word) : (s.branchDelayed target).mem = s.mem := rfl
@[simp] theorem State.branchDelayed_memMap (s : State) (target : Word) :
    (s.branchDelayed target).memMap = s.memMap := rfl
@[simp] theorem State.branchDelayed_endPc (s : State) (target : Word) : (s.branchDelayed target).endPc = s.endPc := rfl
@[simp] theorem State.branchDelayed_interrupts (s : State) (target : Word) :
    (s.branchDelayed target).interrupts = s.interrupts := rfl
@[simp] theorem State.branchDelayed_addressErrorVector (s : State) (target : Word) :
    (s.branchDelayed target).addressErrorVector = s.addressErrorVector := rfl
@[simp] theorem State.branchDelayed_illegalInstructionVector (s : State) (target : Word) :
    (s.branchDelayed target).illegalInstructionVector = s.illegalInstructionVector := rfl
@[simp] theorem State.branchDelayed_illegalSlotVector (s : State) (target : Word) :
    (s.branchDelayed target).illegalSlotVector = s.illegalSlotVector := rfl

@[simp] theorem State.branchDelayed_pc (s : State) (target : Word) : (s.branchDelayed target).pc = s.pc + 2#32 := rfl
@[simp] theorem State.branchDelayed_delay (s : State) (target : Word) : (s.branchDelayed target).delay = some target := rfl

/-! ### branchNow -/

@[simp] theorem State.branchNow_regs (s : State) (target : Word) : (s.branchNow target).regs = s.regs := rfl
@[simp] theorem State.branchNow_sr (s : State) (target : Word) : (s.branchNow target).sr = s.sr := rfl
@[simp] theorem State.branchNow_gbr (s : State) (target : Word) : (s.branchNow target).gbr = s.gbr := rfl
@[simp] theorem State.branchNow_vbr (s : State) (target : Word) : (s.branchNow target).vbr = s.vbr := rfl
@[simp] theorem State.branchNow_mach (s : State) (target : Word) : (s.branchNow target).mach = s.mach := rfl
@[simp] theorem State.branchNow_macl (s : State) (target : Word) : (s.branchNow target).macl = s.macl := rfl
@[simp] theorem State.branchNow_pr (s : State) (target : Word) : (s.branchNow target).pr = s.pr := rfl
@[simp] theorem State.branchNow_delay (s : State) (target : Word) : (s.branchNow target).delay = s.delay := rfl
@[simp] theorem State.branchNow_status (s : State) (target : Word) : (s.branchNow target).status = s.status := rfl
@[simp] theorem State.branchNow_mem (s : State) (target : Word) : (s.branchNow target).mem = s.mem := rfl
@[simp] theorem State.branchNow_memMap (s : State) (target : Word) : (s.branchNow target).memMap = s.memMap := rfl
@[simp] theorem State.branchNow_endPc (s : State) (target : Word) : (s.branchNow target).endPc = s.endPc := rfl
@[simp] theorem State.branchNow_interrupts (s : State) (target : Word) :
    (s.branchNow target).interrupts = s.interrupts := rfl
@[simp] theorem State.branchNow_addressErrorVector (s : State) (target : Word) :
    (s.branchNow target).addressErrorVector = s.addressErrorVector := rfl
@[simp] theorem State.branchNow_illegalInstructionVector (s : State) (target : Word) :
    (s.branchNow target).illegalInstructionVector = s.illegalInstructionVector := rfl
@[simp] theorem State.branchNow_illegalSlotVector (s : State) (target : Word) :
    (s.branchNow target).illegalSlotVector = s.illegalSlotVector := rfl

@[simp] theorem State.branchNow_pc (s : State) (target : Word) : (s.branchNow target).pc = target := rfl

/-! ### advance -/

@[simp] theorem State.advance_regs (s : State) : (s.advance).regs = s.regs := by unfold State.advance; split <;> rfl
@[simp] theorem State.advance_sr (s : State) : (s.advance).sr = s.sr := by unfold State.advance; split <;> rfl
@[simp] theorem State.advance_gbr (s : State) : (s.advance).gbr = s.gbr := by unfold State.advance; split <;> rfl
@[simp] theorem State.advance_vbr (s : State) : (s.advance).vbr = s.vbr := by unfold State.advance; split <;> rfl
@[simp] theorem State.advance_mach (s : State) : (s.advance).mach = s.mach := by unfold State.advance; split <;> rfl
@[simp] theorem State.advance_macl (s : State) : (s.advance).macl = s.macl := by unfold State.advance; split <;> rfl
@[simp] theorem State.advance_pr (s : State) : (s.advance).pr = s.pr := by unfold State.advance; split <;> rfl
@[simp] theorem State.advance_status (s : State) :
    (s.advance).status = s.status := by unfold State.advance; split <;> rfl
@[simp] theorem State.advance_mem (s : State) : (s.advance).mem = s.mem := by unfold State.advance; split <;> rfl
@[simp] theorem State.advance_memMap (s : State) :
    (s.advance).memMap = s.memMap := by unfold State.advance; split <;> rfl
@[simp] theorem State.advance_endPc (s : State) : (s.advance).endPc = s.endPc := by unfold State.advance; split <;> rfl
@[simp] theorem State.advance_interrupts (s : State) :
    (s.advance).interrupts = s.interrupts := by unfold State.advance; split <;> rfl
@[simp] theorem State.advance_addressErrorVector (s : State) :
    (s.advance).addressErrorVector = s.addressErrorVector := by unfold State.advance; split <;> rfl
@[simp] theorem State.advance_illegalInstructionVector (s : State) :
    (s.advance).illegalInstructionVector = s.illegalInstructionVector := by unfold State.advance; split <;> rfl
@[simp] theorem State.advance_illegalSlotVector (s : State) :
    (s.advance).illegalSlotVector = s.illegalSlotVector := by unfold State.advance; split <;> rfl

@[simp] theorem State.advance_pc (s : State) : s.advance.pc = nextPc s := by
  unfold State.advance nextPc; rcases h : s.delay with _ | target <;> rfl

@[simp] theorem State.advance_delay (s : State) : s.advance.delay = none := by
  unfold State.advance; split
  · rfl
  · assumption

/-! ### Registers and bytes after an update -/

/-- Reading a register depends on the register file alone. -/
theorem State.reg_of_regs {s t : State} (h : t.regs = s.regs) (r : Reg) : t.reg r = s.reg r := by
  simp only [State.reg, h]

/-- Reading a byte depends on the memory alone. -/
theorem State.byteAt_of_mem {s t : State} (h : t.mem = s.mem) (a : Word) : t.byteAt a = s.byteAt a := by
  simp only [State.byteAt, h]

@[simp] theorem State.reg_setReg_same (s : State) (n : Reg) (v : Word) : (s.setReg n v).reg n = v := by
  simp [State.reg, State.setReg]

theorem State.reg_setReg_other (s : State) {n r : Reg} (v : Word) (h : r ≠ n) : (s.setReg n v).reg r = s.reg r := by
  have : n.toNat ≠ r.toNat := fun e => h (BitVec.eq_of_toNat_eq e.symm)
  simp [State.reg, State.setReg, this]

theorem State.reg_setReg (s : State) (n r : Reg) (v : Word) :
    (s.setReg n v).reg r = if r = n then v else s.reg r := by
  split
  · next h => subst h; simp
  · next h => exact s.reg_setReg_other v h

@[simp] theorem State.putByte_reg (s : State) (a : Word) (v : Byte) (r : Reg) : (s.putByte a v).reg r = s.reg r :=
  State.reg_of_regs (by simp) r

@[simp] theorem State.putHalf_reg (s : State) (a : Word) (v : Half) (r : Reg) : (s.putHalf a v).reg r = s.reg r :=
  State.reg_of_regs (by simp) r

@[simp] theorem State.putLong_reg (s : State) (a : Word) (v : Word) (r : Reg) : (s.putLong a v).reg r = s.reg r :=
  State.reg_of_regs (by simp) r

@[simp] theorem State.branchDelayed_reg (s : State) (target : Word) (r : Reg) : (s.branchDelayed target).reg r = s.reg r :=
  State.reg_of_regs (by simp) r

@[simp] theorem State.branchNow_reg (s : State) (target : Word) (r : Reg) : (s.branchNow target).reg r = s.reg r :=
  State.reg_of_regs (by simp) r

@[simp] theorem State.advance_reg (s : State) (r : Reg) : (s.advance).reg r = s.reg r :=
  State.reg_of_regs (by simp) r

@[simp] theorem State.setReg_byteAt (s : State) (n : Reg) (v : Word) (b : Word) : (s.setReg n v).byteAt b = s.byteAt b :=
  State.byteAt_of_mem (by simp) b

@[simp] theorem State.branchDelayed_byteAt (s : State) (target : Word) (b : Word) : (s.branchDelayed target).byteAt b = s.byteAt b :=
  State.byteAt_of_mem (by simp) b

@[simp] theorem State.branchNow_byteAt (s : State) (target : Word) (b : Word) : (s.branchNow target).byteAt b = s.byteAt b :=
  State.byteAt_of_mem (by simp) b

@[simp] theorem State.advance_byteAt (s : State) (b : Word) : (s.advance).byteAt b = s.byteAt b :=
  State.byteAt_of_mem (by simp) b

@[simp] theorem State.setReg_backed (s : State) (n : Reg) (v : Word) (b : Word) : (s.setReg n v).backed b = s.backed b := by
  simp [State.backed]

@[simp] theorem State.putByte_backed (s : State) (a : Word) (v : Byte) (b : Word) : (s.putByte a v).backed b = s.backed b := by
  simp [State.backed]

@[simp] theorem State.putHalf_backed (s : State) (a : Word) (v : Half) (b : Word) : (s.putHalf a v).backed b = s.backed b := by
  simp [State.backed]

@[simp] theorem State.putLong_backed (s : State) (a : Word) (v : Word) (b : Word) : (s.putLong a v).backed b = s.backed b := by
  simp [State.backed]

@[simp] theorem State.advance_backed (s : State) (b : Word) : (s.advance).backed b = s.backed b := by
  simp [State.backed]

@[simp] theorem State.setReg_isText (s : State) (n : Reg) (v : Word) (b : Word) : (s.setReg n v).isText b = s.isText b := by
  simp [State.isText]

@[simp] theorem State.putByte_isText (s : State) (a : Word) (v : Byte) (b : Word) : (s.putByte a v).isText b = s.isText b := by
  simp [State.isText]

@[simp] theorem State.putHalf_isText (s : State) (a : Word) (v : Half) (b : Word) : (s.putHalf a v).isText b = s.isText b := by
  simp [State.isText]

@[simp] theorem State.putLong_isText (s : State) (a : Word) (v : Word) (b : Word) : (s.putLong a v).isText b = s.isText b := by
  simp [State.isText]

@[simp] theorem State.advance_isText (s : State) (b : Word) : (s.advance).isText b = s.isText b := by
  simp [State.isText]

/-! ### The status register as a longword (R25) -/

@[simp] theorem StatusReg.ofWord_toWord (r : StatusReg) : StatusReg.ofWord r.toWord = r := by
  obtain ⟨t, s, i, q, m⟩ := r
  revert t s i q m
  decide

theorem StatusReg.getLsbD_toWord_ofWord (v : Word) (k : Nat) :
    (StatusReg.ofWord v).toWord.getLsbD k = (v.getLsbD k && (0x000003F3#32).getLsbD k) := by
  have mask : k < 32 → (0x000003F3#32).getLsbD k = decide (k < 2 ∨ 4 ≤ k ∧ k < 10) := by decide +revert
  simp only [StatusReg.toWord, StatusReg.ofWord, BitVec.getLsbD_or, BitVec.getLsbD_shiftLeft,
    BitVec.getLsbD_setWidth, BitVec.getLsbD_ofBool, BitVec.getLsbD_extractLsb']
  rcases Nat.lt_or_ge k 32 with h | h
  · rw [mask h]
    rcases Nat.lt_or_ge k 10 with h' | h'
    · interval_cases k <;> simp
    · simp; grind
  · simp [h]

/-- What a whole-SR write keeps: `v & 0x000003F3` (R25). -/
theorem StatusReg.toWord_ofWord (v : Word) : (StatusReg.ofWord v).toWord = v &&& 0x000003F3#32 := by
  apply BitVec.eq_of_getLsbD_eq
  intro k _
  rw [StatusReg.getLsbD_toWord_ofWord, BitVec.getLsbD_and]

end Sys2Proof.Machine
end

