-- ==== Sys2Proof/Laws/Memory.lean ====
section
/-! SUPPORT. The laws of memory: every memory operation keeps the canonical form, a read after a write gives the value
written, and a write leaves every other place alone. -/

namespace Sys2Proof.Machine

/-! ### The list of cells -/

@[simp] theorem Memory.entry_eq (a : Nat) (v : Byte) (rest : List Host.Cell) :
    Memory.entry a v rest = (a, v) :: rest := rfl

theorem Memory.find_put_same (m : List Host.Cell) (a : Nat) (v : Byte) : Memory.find (Memory.put m a v) a = some v := by
  induction m with
  | nil => simp [Memory.put, Memory.find]
  | cons c rest ih =>
    unfold Memory.put
    split
    · simp [Memory.find]
    · split
      · simp [Memory.find]
      · next h => simp [Memory.find, Ne.symm h, ih]

theorem Memory.find_put_other (m : List Host.Cell) {a b : Nat} (v : Byte) (h : b ≠ a) :
    Memory.find (Memory.put m a v) b = Memory.find m b := by
  induction m with
  | nil => simp [Memory.put, Memory.find, Ne.symm h]
  | cons c rest ih =>
    unfold Memory.put
    split
    · simp [Memory.find, Ne.symm h]
    · split
      · next e => subst e; simp [Memory.find, Ne.symm h]
      · simp only [Memory.find, ih]

/-- The addresses of a memory after a write. -/
theorem Memory.mem_put {m : List Host.Cell} {a : Nat} {v : Byte} {c : Host.Cell} (h : c ∈ Memory.put m a v) :
    c = (a, v) ∨ c ∈ m := by
  induction m with
  | nil => simpa [Memory.put] using h
  | cons d rest ih =>
    unfold Memory.put at h
    split at h
    · simpa using h
    · split at h
      · rcases List.mem_cons.1 h with h | h
        · exact .inl h
        · exact .inr (List.mem_cons_of_mem _ h)
      · rcases List.mem_cons.1 h with h | h
        · exact .inr (h ▸ List.mem_cons_self)
        · exact (ih h).imp id (List.mem_cons_of_mem _)

/-- A write inside the address space keeps the canonical form. -/
theorem Memory.wf_put {m : List Host.Cell} {a : Nat} (v : Byte) (h : Memory.wf m) (ha : a < Config.spaceSize) :
    Memory.wf (Memory.put m a v) := by
  refine ⟨?_, fun c hc => ?_⟩
  · have hp := h.1
    clear h
    induction m with
    | nil => simp [Memory.put]
    | cons d rest ih =>
      obtain ⟨hd, hr⟩ := List.pairwise_cons.1 hp
      unfold Memory.put
      split
      · next lt =>
        refine List.pairwise_cons.2 ⟨fun c hc => ?_, hp⟩
        rcases List.mem_cons.1 hc with rfl | hc
        · exact lt
        · exact Nat.lt_trans lt (hd c hc)
      · split
        · next eq => exact List.pairwise_cons.2 ⟨fun c hc => by simpa [eq] using hd c hc, hr⟩
        · next nlt ne =>
          refine List.pairwise_cons.2 ⟨fun c hc => ?_, ih hr⟩
          rcases Memory.mem_put hc with rfl | hc
          · show d.1 < a
            omega
          · exact hd c hc
  · rcases Memory.mem_put hc with rfl | hc
    · exact ⟨ha, by simp [Memory.unlisted]⟩
    · exact h.2 c hc

/-! ### Bytes of the state -/

@[simp] theorem State.byteAt_putByte_same (s : State) (a : Word) (v : Byte) : (s.putByte a v).byteAt a = some v :=
  Memory.find_put_same _ _ _

theorem State.byteAt_putByte_other (s : State) {a b : Word} (v : Byte) (h : b ≠ a) :
    (s.putByte a v).byteAt b = s.byteAt b :=
  Memory.find_put_other _ _ fun e => h (BitVec.eq_of_toNat_eq e)

theorem State.byteAt_putByte (s : State) (a b : Word) (v : Byte) :
    (s.putByte a v).byteAt b = if b = a then some v else s.byteAt b := by
  split
  · next h => subst h; simp
  · next h => exact s.byteAt_putByte_other v h

theorem State.inv_putByte {s : State} (a : Word) (v : Byte) (h : s.Inv) : (s.putByte a v).Inv :=
  Memory.wf_put v h a.isLt

theorem State.inv_putHalf {s : State} (a : Word) (v : Half) (h : s.Inv) : (s.putHalf a v).Inv :=
  State.inv_putByte _ _ (State.inv_putByte _ _ h)

theorem State.inv_putLong {s : State} (a : Word) (v : Word) (h : s.Inv) : (s.putLong a v).Inv :=
  State.inv_putHalf _ _ (State.inv_putHalf _ _ h)

/-! ### Addresses of an access -/

theorem mem_span {a b : Word} {n : Nat} : b ∈ span a n ↔ ∃ k < n, a + BitVec.ofNat 32 k = b := by
  simp [span]

theorem span_one (a : Word) : span a 1 = [a] := by simp [span, List.range, List.range.loop]

theorem span_two (a : Word) : span a 2 = [a, a + 1#32] := by simp [span, List.range, List.range.loop]

theorem span_four (a : Word) : span a 4 = [a, a + 1#32, a + 2#32, a + 3#32] := by
  simp [span, List.range, List.range.loop]

theorem span_eight (a : Word) :
    span a 8 = [a, a + 1#32, a + 2#32, a + 3#32, a + 4#32, a + 5#32, a + 6#32, a + 7#32] := by
  simp [span, List.range, List.range.loop]

/-! ### Words and longwords -/

theorem highByte_of_highHalf (v : Word) : (v.extractLsb' 16 16).extractLsb' 8 8 = v.extractLsb' 24 8 := by
  ext k hk
  have : 8 + k < 16 := by omega
  simp [this, ← Nat.add_assoc]

theorem lowByte_of_highHalf (v : Word) : (v.extractLsb' 16 16).extractLsb' 0 8 = v.extractLsb' 16 8 := by
  ext k hk
  have : k < 16 := by omega
  simp [this]

theorem State.byteAt_putHalf (s : State) (a b : Word) (v : Half) :
    (s.putHalf a v).byteAt b =
      if b = a + 1#32 then some (v.extractLsb' 0 8) else if b = a then some (v.extractLsb' 8 8) else s.byteAt b := by
  simp only [State.putHalf, State.byteAt_putByte]

theorem State.byteAt_putLong (s : State) (a b : Word) (v : Word) :
    (s.putLong a v).byteAt b =
      if b = a + 3#32 then some (v.extractLsb' 0 8) else if b = a + 2#32 then some (v.extractLsb' 8 8)
      else if b = a + 1#32 then some (v.extractLsb' 16 8) else if b = a then some (v.extractLsb' 24 8)
      else s.byteAt b := by
  have e : a + 2#32 + 1#32 = a + 3#32 := by bv_omega
  simp only [State.putLong, State.byteAt_putHalf, e]
  simp [highByte_of_highHalf, lowByte_of_highHalf]

theorem State.holdsHalf_putHalf (s : State) (a : Word) (v : Half) : HoldsHalf (s.putHalf a v) a v := by
  have h : a ≠ a + 1#32 := by bv_omega
  exact ⟨by simp [HoldsByte, State.byteAt_putHalf, h], by simp [HoldsByte, State.byteAt_putHalf]⟩

theorem State.holdsLong_putLong (s : State) (a : Word) (v : Word) : HoldsLong (s.putLong a v) a v := by
  have h1 : a ≠ a + 1#32 := by bv_omega
  have h2 : a ≠ a + 2#32 := by bv_omega
  have h3 : a ≠ a + 3#32 := by bv_omega
  refine ⟨?_, ?_, ?_, ?_⟩ <;> simp [HoldsByte, State.byteAt_putLong, h1, h2, h3]

theorem State.sameMemOutside_putByte (s : State) (a : Word) (v : Byte) : SameMemOutside a 1 s (s.putByte a v) := by
  intro b hb
  rw [span_one] at hb
  simp_all [State.byteAt_putByte]

theorem State.sameMemOutside_putHalf (s : State) (a : Word) (v : Half) : SameMemOutside a 2 s (s.putHalf a v) := by
  intro b hb
  rw [span_two] at hb
  simp_all [State.byteAt_putHalf]

theorem State.sameMemOutside_putLong (s : State) (a : Word) (v : Word) : SameMemOutside a 4 s (s.putLong a v) := by
  intro b hb
  rw [span_four] at hb
  simp_all [State.byteAt_putLong]

/-- The high byte, then the low byte, of a word are the word. -/
theorem half_of_bytes (v : Half) : v.extractLsb' 8 8 ++ v.extractLsb' 0 8 = v := by
  apply BitVec.eq_of_getLsbD_eq
  intro k hk
  simp only [BitVec.getLsbD_append, BitVec.getLsbD_extractLsb']
  rcases Nat.lt_or_ge k 8 with h | h
  · simp [h]
  · have : k - 8 < 8 := by omega
    have e : 8 + (k - 8) = k := by omega
    simp [Nat.not_lt.2 h, this, e]

/-- The high word, then the low word, of a longword are the longword. -/
theorem long_of_halves (v : Word) : v.extractLsb' 16 16 ++ v.extractLsb' 0 16 = v := by
  apply BitVec.eq_of_getLsbD_eq
  intro k hk
  simp only [BitVec.getLsbD_append, BitVec.getLsbD_extractLsb']
  rcases Nat.lt_or_ge k 16 with h | h
  · simp [h]
  · have : k - 16 < 16 := by omega
    have e : 16 + (k - 16) = k := by omega
    simp [Nat.not_lt.2 h, this, e]

/-- The longword at a is the word at a followed by the word at a + 2. -/
theorem holdsLong_iff (s : State) (a v : Word) :
    HoldsLong s a v ↔ HoldsHalf s a (v.extractLsb' 16 16) ∧ HoldsHalf s (a + 2#32) (v.extractLsb' 0 16) := by
  have e : a + 2#32 + 1#32 = a + 3#32 := by bv_omega
  simp only [HoldsLong, HoldsHalf, e, and_assoc]
  simp [highByte_of_highHalf, lowByte_of_highHalf]

end Sys2Proof.Machine
end

