-- ==== Sys2Proof/Laws/Ops.lean ====
section
/-! SUPPORT. For each shared operation, once, everything it can do: what it answers when its conditions hold, and what must
have held when it answered a next state. Later proofs cite these and unfold no operation. -/

set_option Elab.async false

namespace Sys2Proof.Machine

/-! ### Sequencing -/

@[simp] theorem Result.andThen_next {α β : Type} (a : α) (f : α → Result β) : Result.andThen (.next a) f = f a := rfl

@[simp] theorem Result.andThen_fault {α β : Type} (r : Fault) (f : α → Result β) :
    Result.andThen (.fault r) f = .fault r := rfl

@[simp] theorem Result.andThen_refused {α β : Type} (r : Refusal) (f : α → Result β) :
    Result.andThen (.refused r) f = .refused r := rfl

theorem Result.andThen_eq_next {α β : Type} {x : Result α} {f : α → Result β} {b : β} :
    Result.andThen x f = .next b ↔ ∃ a, x = .next a ∧ f a = .next b := by
  cases x <;> simp [Result.andThen]

theorem Result.andThen_assoc {α β γ : Type} (x : Result α) (f : α → Result β) (g : β → Result γ) :
    Result.andThen (Result.andThen x f) g = Result.andThen x fun a => Result.andThen (f a) g := by
  cases x <;> rfl

/-! ### The checks -/

theorem checkAligned_eq_next {a : Word} {kind : AccessKind} {n : Nat} {u : Unit} :
    checkAligned a kind n = .next u ↔ a.toNat % n = 0 := by
  unfold checkAligned; split <;> simp_all

theorem checkBacked_eq_next {s : State} {a : Word} {kind : AccessKind} {n : Nat} {u : Unit} :
    checkBacked s a kind n = .next u ↔ Backed s a n := by
  unfold checkBacked
  split <;> simp_all

theorem checkNotText_eq_next {s : State} {a : Word} {n : Nat} {u : Unit} :
    checkNotText s a n = .next u ↔ (span a n).any s.isText = false := by
  unfold checkNotText
  split <;> simp_all

theorem checkRead_eq_next {s : State} {a : Word} {n : Nat} {u : Unit} :
    checkRead s a n = .next u ↔ Reachable s a n := by
  simp [checkRead, Result.andThen_eq_next, checkAligned_eq_next, checkBacked_eq_next, Reachable]

theorem checkWrite_eq_next {s : State} {a : Word} {n : Nat} {u : Unit} :
    checkWrite s a n = .next u ↔ Storable s a n := by
  simp [checkWrite, Result.andThen_eq_next, checkAligned_eq_next, checkBacked_eq_next, checkNotText_eq_next, Storable,
    Reachable, and_assoc]

/-- A misaligned access stops at its first check. -/
theorem checkRead_misaligned {s : State} {a : Word} {n : Nat} (h : a.toNat % n ≠ 0) :
    checkRead s a n = .fault (.addressError a .read n) := by
  simp [checkRead, checkAligned, h]

theorem checkWrite_misaligned {s : State} {a : Word} {n : Nat} (h : a.toNat % n ≠ 0) :
    checkWrite s a n = .fault (.addressError a .write n) := by
  simp [checkWrite, checkAligned, h]

/-! ### Reads -/

theorem loadByte_eq_next {s : State} {a : Word} {v : Byte} : loadByte s a = .next v ↔ HoldsByte s a v := by
  unfold loadByte HoldsByte; split <;> simp_all

theorem loadHalf_eq_next {s : State} {a : Word} {v : Half} : loadHalf s a = .next v ↔ HoldsHalf s a v := by
  constructor
  · intro h
    simp only [loadHalf, Result.andThen_eq_next, loadByte_eq_next] at h
    obtain ⟨b0, h0, b1, h1, e⟩ := h
    have e : b0 ++ b1 = v := by simpa using e
    subst e
    refine ⟨?_, ?_⟩
    · rw [BitVec.extractLsb'_append_eq_of_le (by decide)]; simpa using h0
    · rw [BitVec.extractLsb'_append_eq_of_add_le (by decide)]; simpa using h1
  · rintro ⟨h0, h1⟩
    simp [loadHalf, loadByte_eq_next.2 h0, loadByte_eq_next.2 h1, half_of_bytes]

/-- A word with a byte that holds no value faults at such a byte (R52 step 3). -/
theorem loadHalf_unwritten {s : State} {a : Word} (h : ∃ b ∈ span a 2, s.byteAt b = none) :
    ∃ b ∈ span a 2, s.byteAt b = none ∧ loadHalf s a = .fault (.unwrittenRead b) := by
  have mem : ∀ b, b ∈ span a 2 ↔ b = a ∨ b = a + 1#32 := by simp [span, List.range_succ]
  simp only [mem] at h ⊢
  cases h0 : s.byteAt a with
  | none => exact ⟨a, .inl rfl, h0, by simp [loadHalf, loadByte, h0]⟩
  | some v =>
    obtain ⟨b, rfl | rfl, hb⟩ := h
    · simp [h0] at hb
    · exact ⟨_, .inr rfl, hb, by simp [loadHalf, loadByte, h0, hb]⟩

theorem loadLong_eq_next {s : State} {a : Word} {v : Word} : loadLong s a = .next v ↔ HoldsLong s a v := by
  rw [holdsLong_iff]
  constructor
  · intro h
    simp only [loadLong, Result.andThen_eq_next, loadHalf_eq_next] at h
    obtain ⟨b0, h0, b1, h1, e⟩ := h
    have e : b0 ++ b1 = v := by simpa using e
    subst e
    refine ⟨?_, ?_⟩
    · rw [BitVec.extractLsb'_append_eq_of_le (by decide)]; simpa using h0
    · rw [BitVec.extractLsb'_append_eq_of_add_le (by decide)]; simpa using h1
  · rintro ⟨h0, h1⟩
    simp [loadLong, loadHalf_eq_next.2 h0, loadHalf_eq_next.2 h1, long_of_halves]

/-- A byte read answers v exactly when the backed byte holds v (R52). -/
theorem read8_eq_next {s : State} {a : Word} {v : Byte} : read8 s a = .next v ↔ ReadsByte s a v := by
  simp [read8, Result.andThen_eq_next, checkRead_eq_next, loadByte_eq_next, ReadsByte]

/-- A word read answers v exactly when the aligned, backed bytes hold v (R52). -/
theorem read16_eq_next {s : State} {a : Word} {v : Half} : read16 s a = .next v ↔ ReadsHalf s a v := by
  simp only [read16, Result.andThen_eq_next, checkRead_eq_next, loadHalf_eq_next, ReadsHalf, exists_const]

/-- A longword read answers v exactly when the aligned, backed bytes hold v (R52). -/
theorem read32_eq_next {s : State} {a : Word} {v : Word} : read32 s a = .next v ↔ ReadsLong s a v := by
  simp only [read32, Result.andThen_eq_next, checkRead_eq_next, loadLong_eq_next, ReadsLong, exists_const]

theorem read16_misaligned {s : State} {a : Word} (h : a.toNat % 2 ≠ 0) :
    read16 s a = .fault (.addressError a .read 2) := by
  simp [read16, checkRead_misaligned h]

theorem read32_misaligned {s : State} {a : Word} (h : a.toNat % 4 ≠ 0) :
    read32 s a = .fault (.addressError a .read 4) := by
  simp [read32, checkRead_misaligned h]

/-! ### Writes -/

/-- A byte write answers a state exactly when the byte may be stored to (R53). -/
theorem write8_eq_next {s t : State} {a : Word} {v : Byte} :
    write8 s a v = .next t ↔ Storable s a 1 ∧ t = s.putByte a v := by
  simp [write8, Result.andThen_eq_next, checkWrite_eq_next, @eq_comm _ t]

/-- A word write answers a state exactly when its bytes may be stored to (R53). -/
theorem write16_eq_next {s t : State} {a : Word} {v : Half} :
    write16 s a v = .next t ↔ Storable s a 2 ∧ t = s.putHalf a v := by
  simp only [write16, Result.andThen_eq_next, checkWrite_eq_next, exists_const, Host.Outcome.next.injEq, @eq_comm _ t]

/-- A longword write answers a state exactly when its bytes may be stored to (R53). -/
theorem write32_eq_next {s t : State} {a : Word} {v : Word} :
    write32 s a v = .next t ↔ Storable s a 4 ∧ t = s.putLong a v := by
  simp only [write32, Result.andThen_eq_next, checkWrite_eq_next, exists_const, Host.Outcome.next.injEq, @eq_comm _ t]

theorem write16_misaligned {s : State} {a : Word} {v : Half} (h : a.toNat % 2 ≠ 0) :
    write16 s a v = .fault (.addressError a .write 2) := by
  simp [write16, checkWrite_misaligned h]

theorem write32_misaligned {s : State} {a : Word} {v : Word} (h : a.toNat % 4 ≠ 0) :
    write32 s a v = .fault (.addressError a .write 4) := by
  simp [write32, checkWrite_misaligned h]

/-! ### Frames of the endings -/

/-- Nothing changes in a move of the program counter but the program counter. -/
theorem regFrame_advance (s : State) : RegFrame [] s s.advance :=
  ⟨fun _ _ => by simp, ⟨⟨by simp, by simp⟩, ⟨by simp, by simp⟩, by simp⟩, fun _ => by simp,
    ⟨by simp, ⟨by simp, by simp⟩, by simp⟩, by simp, by simp⟩

/-- An instruction that writes one register (`doneReg`). -/
theorem doneReg_eq_next {s : State} {n : Reg} {v : Word} :
    ∃ t, doneReg s n v = .next t ∧ t.reg n = v ∧ t.sr = s.sr ∧ RegFrame [n] s t := by
  refine ⟨_, rfl, by simp, by simp, fun r hr => ?_, ?_, fun _ => by simp, ?_, ?_⟩
  · rw [State.advance_reg, State.reg_setReg_other _ _ (by simpa using hr)]
  · exact ⟨⟨by simp, by simp⟩, ⟨by simp, by simp⟩, by simp⟩
  · exact ⟨by simp, ⟨by simp, by simp⟩, by simp⟩
  · exact ⟨by simp [nextPc], by simp⟩

/-- An instruction that replaces SR (`doneSr`). -/
theorem doneSr_eq_next {s : State} {r : StatusReg} :
    ∃ t, doneSr s r = .next t ∧ t.sr = r ∧ RegFrame [] s t := by
  refine ⟨_, rfl, by simp, fun n _ => ?_, ?_, fun a => ?_, ?_, ?_⟩
  · exact State.reg_of_regs (by simp) n
  · exact ⟨⟨by simp, by simp⟩, ⟨by simp, by simp⟩, by simp⟩
  · exact State.byteAt_of_mem (by simp) a
  · exact ⟨by simp, ⟨by simp, by simp⟩, by simp⟩
  · exact ⟨by simp [nextPc], by simp⟩

/-- An instruction that writes one register and T (`doneRegT`). -/
theorem doneRegT_eq_next {s : State} {n : Reg} {v : Word} {b : Bool} :
    ∃ t, doneRegT s n v b = .next t ∧ t.reg n = v ∧ t.sr = { s.sr with t := b } ∧ RegFrame [n] s t := by
  obtain ⟨t, ht, hsr, hr, hs, hm, hrun, hpc⟩ := @doneSr_eq_next (s.setReg n v) { s.sr with t := b }
  refine ⟨t, ht, ?_, hsr, fun r hn => ?_, hs, fun a => ?_, hrun, hpc⟩
  · rw [hr n (by simp), State.reg_setReg_same]
  · rw [hr r (by simp), State.reg_setReg_other _ _ (by simpa using hn)]
  · rw [hm a, State.setReg_byteAt]

/-! ### Loads and stores -/

theorem doLoad8_eq_next {s : State} {a : Word} {n : Reg} {v : Byte} (h : ReadsByte s a v) :
    doLoad8 s a n = doneReg s n (sext8 v) := by
  simp [doLoad8, read8_eq_next.2 h]

theorem doLoad16_eq_next {s : State} {a : Word} {n : Reg} {v : Half} (h : ReadsHalf s a v) :
    doLoad16 s a n = doneReg s n (sext16 v) := by
  simp [doLoad16, read16_eq_next.2 h]

theorem doLoad32_eq_next {s : State} {a : Word} {n : Reg} {v : Word} (h : ReadsLong s a v) :
    doLoad32 s a n = doneReg s n v := by
  simp [doLoad32, read32_eq_next.2 h]

theorem storeFrame_putByte (s : State) (a : Word) (v : Byte) : StoreFrame a 1 [] s (s.putByte a v).advance :=
  ⟨fun b hb => by rw [State.advance_byteAt]; exact State.sameMemOutside_putByte s a v b hb, fun _ _ => by simp,
    ⟨⟨by simp, by simp⟩, ⟨by simp, by simp⟩, by simp⟩, ⟨by simp, ⟨by simp, by simp⟩, by simp⟩, by simp [nextPc],
    by simp⟩

theorem storeFrame_putHalf (s : State) (a : Word) (v : Half) : StoreFrame a 2 [] s (s.putHalf a v).advance :=
  ⟨fun b hb => by rw [State.advance_byteAt]; exact State.sameMemOutside_putHalf s a v b hb, fun _ _ => by simp,
    ⟨⟨by simp, by simp⟩, ⟨by simp, by simp⟩, by simp⟩, ⟨by simp, ⟨by simp, by simp⟩, by simp⟩, by simp [nextPc],
    by simp⟩

theorem storeFrame_putLong (s : State) (a : Word) (v : Word) : StoreFrame a 4 [] s (s.putLong a v).advance :=
  ⟨fun b hb => by rw [State.advance_byteAt]; exact State.sameMemOutside_putLong s a v b hb, fun _ _ => by simp,
    ⟨⟨by simp, by simp⟩, ⟨by simp, by simp⟩, by simp⟩, ⟨by simp, ⟨by simp, by simp⟩, by simp⟩, by simp [nextPc],
    by simp⟩

theorem doStore8_eq_next {s : State} {a : Word} {v : Byte} (h : Storable s a 1) :
    ∃ t, doStore8 s a v = .next t ∧ HoldsByte t a v ∧ t.sr = s.sr ∧ StoreFrame a 1 [] s t :=
  ⟨_, by rw [doStore8, write8_eq_next.2 ⟨h, rfl⟩]; rfl, by simp [HoldsByte], by simp, storeFrame_putByte s a v⟩

theorem doStore16_eq_next {s : State} {a : Word} {v : Half} (h : Storable s a 2) :
    ∃ t, doStore16 s a v = .next t ∧ HoldsHalf t a v ∧ t.sr = s.sr ∧ StoreFrame a 2 [] s t :=
  ⟨_, by rw [doStore16, write16_eq_next.2 ⟨h, rfl⟩]; rfl,
    by simpa [HoldsHalf, HoldsByte] using s.holdsHalf_putHalf a v, by simp, storeFrame_putHalf s a v⟩

theorem doStore32_eq_next {s : State} {a : Word} {v : Word} (h : Storable s a 4) :
    ∃ t, doStore32 s a v = .next t ∧ HoldsLong t a v ∧ t.sr = s.sr ∧ StoreFrame a 4 [] s t :=
  ⟨_, by rw [doStore32, write32_eq_next.2 ⟨h, rfl⟩]; rfl,
    by simpa [HoldsLong, HoldsByte] using s.holdsLong_putLong a v, by simp, storeFrame_putLong s a v⟩

/-- A pop answers what its continuation answers on the longword at R[m], the register incremented (R325). -/
theorem popLong_eq {s : State} {m : Reg} {v : Word} (k : State → Word → Result State) (h : ReadsLong s (s.reg m) v) :
    popLong s m k = k (s.setReg m (s.reg m + 4#32)) v := by
  simp [popLong, read32_eq_next.2 h]

/-- A pop that answers a state read the longword at R[m]. -/
theorem popLong_eq_next {s t : State} {m : Reg} {k : State → Word → Result State} :
    popLong s m k = .next t ↔ ∃ v, ReadsLong s (s.reg m) v ∧ k (s.setReg m (s.reg m + 4#32)) v = .next t := by
  simp only [popLong, Result.andThen_eq_next, read32_eq_next]

theorem pushLong_eq {s : State} {n : Reg} {v : Word} (h : Storable s (s.reg n - 4#32) 4) :
    pushLong s n v = doneReg (s.putLong (s.reg n - 4#32) v) n (s.reg n - 4#32) := by
  simp [pushLong, write32_eq_next.2 ⟨h, rfl⟩]

/-- A push stores the longword below R[n], decrements it, and changes nothing else (R325). -/
theorem pushLong_eq_next {s : State} {n : Reg} {v : Word} (h : Storable s (s.reg n - 4#32) 4) :
    ∃ t, pushLong s n v = .next t ∧ HoldsLong t (s.reg n - 4#32) v ∧ t.reg n = s.reg n - 4#32 ∧ t.sr = s.sr ∧
      StoreFrame (s.reg n - 4#32) 4 [n] s t := by
  rw [pushLong_eq h]
  refine ⟨_, rfl, ?_, by simp, by simp, fun b hb => ?_, fun r hr => ?_, ?_, ?_, ?_⟩
  · simpa [HoldsLong, HoldsByte] using s.holdsLong_putLong (s.reg n - 4#32) v
  · rw [State.advance_byteAt, State.setReg_byteAt]; exact State.sameMemOutside_putLong s _ v b hb
  · rw [State.advance_reg, State.reg_setReg_other _ _ (by simpa using hr), State.putLong_reg]
  · exact ⟨⟨by simp, by simp⟩, ⟨by simp, by simp⟩, by simp⟩
  · exact ⟨by simp, ⟨by simp, by simp⟩, by simp⟩
  · exact ⟨by simp [nextPc], by simp⟩

theorem modifyByte_eq {s : State} {a : Word} {b : Byte} (f : Byte → Byte) (h : ReadsByte s a b) :
    modifyByte s a f = doStore8 s a (f b) := by
  simp [modifyByte, read8_eq_next.2 h]

/-! ### The delay slot -/

@[simp] theorem outsideSlot_of_none {i : Instr} {s : State} {k : Result State} (h : s.delay = none) :
    outsideSlot i s k = k := by
  simp [outsideSlot, h]

theorem outsideSlot_of_some {i : Instr} {s : State} {k : Result State} {target : Word} (h : s.delay = some target) :
    outsideSlot i s k = .fault (.illegalSlot (encode i) s.pc) := by
  simp [outsideSlot, h]

theorem outsideSlot_eq_next {i : Instr} {s t : State} {k : Result State} :
    outsideSlot i s k = .next t ↔ s.delay = none ∧ k = .next t := by
  rcases h : s.delay with _ | target <;> simp [outsideSlot, h]

/-! ### Exceptions -/

/-- Taking an exception answers a state exactly when the frame can be pushed and the vector entry read after that, and
then it is this one (R383). -/
theorem enterException_eq_next {s t : State} {returnPc : Word} {vector : BitVec 8} :
    enterException s returnPc vector = .next t ↔
      Storable s (s.reg 15#4 - 4#32) 4 ∧
      Storable (s.putLong (s.reg 15#4 - 4#32) s.sr.toWord) (s.reg 15#4 - 8#32) 4 ∧
      ∃ target,
        ReadsLong ((s.putLong (s.reg 15#4 - 4#32) s.sr.toWord).putLong (s.reg 15#4 - 8#32) returnPc)
          (vectorAddress s vector) target ∧
        ((((s.putLong (s.reg 15#4 - 4#32) s.sr.toWord).putLong (s.reg 15#4 - 8#32) returnPc).setReg 15#4
          (s.reg 15#4 - 8#32)).branchNow target) = t := by
  simp only [enterException, Config.stackPointer, Result.andThen_eq_next, write32_eq_next, read32_eq_next,
    Host.Outcome.next.injEq]
  constructor
  · rintro ⟨_, ⟨h1, rfl⟩, _, ⟨h2, rfl⟩, target, h3, e⟩
    exact ⟨h1, h2, target, h3, e⟩
  · rintro ⟨h1, h2, target, h3, e⟩
    exact ⟨_, ⟨h1, rfl⟩, _, ⟨h2, rfl⟩, target, h3, e⟩

/-- An entry whose frame can be pushed stops at its vector when that is misaligned (R359, R392). -/
theorem enterException_vector_misaligned {s : State} {returnPc : Word} {vector : BitVec 8}
    (h1 : Storable s (s.reg 15#4 - 4#32) 4) (h2 : Storable s (s.reg 15#4 - 8#32) 4)
    (h : (vectorAddress s vector).toNat % 4 ≠ 0) :
    enterException s returnPc vector = .fault (.addressError (vectorAddress s vector) .read 4) := by
  have h2' : Storable (s.putLong (s.reg 15#4 - 4#32) s.sr.toWord) (s.reg 15#4 - 8#32) 4 := by
    simpa [Storable, Reachable, Backed, funext_iff] using h2
  simp [enterException, Config.stackPointer, write32_eq_next.2 ⟨h1, rfl⟩, write32_eq_next.2 ⟨h2', rfl⟩,
    read32_misaligned h]

/-- Returning from an exception answers a state exactly when both longwords of the frame can be read, and then it is this
one (R344). -/
theorem returnFromException_eq_next {s t : State} :
    returnFromException s = .next t ↔ ∃ newPc newSr, ReadsLong s (s.reg 15#4) newPc ∧
      ReadsLong s (s.reg 15#4 + 4#32) newSr ∧
      ({ s.setReg 15#4 (s.reg 15#4 + 8#32) with sr := StatusReg.ofWord newSr }.branchDelayed newPc) = t := by
  simp only [returnFromException, Config.stackPointer, Result.andThen_eq_next, read32_eq_next,
    Host.Outcome.next.injEq]
  constructor
  · rintro ⟨newPc, h1, newSr, h2, e⟩
    exact ⟨newPc, newSr, h1, h2, e⟩
  · rintro ⟨newPc, newSr, h1, h2, e⟩
    exact ⟨newPc, h1, newSr, h2, e⟩

/-! ### The fetch -/

/-- A fetch answers a code exactly when pc is even and its two bytes are program text and hold the code (R54). -/
theorem fetch_eq_next {s : State} {op : Half} :
    fetch s = .next op ↔ s.pc.toNat % 2 = 0 ∧ (∀ b ∈ span s.pc 2, s.isText b = true) ∧ HoldsHalf s s.pc op := by
  unfold fetch
  rw [Result.andThen_eq_next]
  constructor
  · rintro ⟨_, ha, h⟩
    refine ⟨checkAligned_eq_next.1 ha, ?_⟩
    split at h
    · next ht => exact ⟨List.all_eq_true.1 ht, loadHalf_eq_next.1 h⟩
    · cases h
  · rintro ⟨ha, ht, hv⟩
    exact ⟨(), checkAligned_eq_next.2 ha, by rw [if_pos (List.all_eq_true.2 ht)]; exact loadHalf_eq_next.2 hv⟩

end Sys2Proof.Machine
end

