-- ==== Sys2Proof/Laws/PerInstr.lean ====
section
/-! SUPPORT. The family `EncodesRow`, per instruction: the code the encoder writes belongs to the instruction's own row of
spec/opcode_table.json (R82, R87). -/

set_option Elab.async false

namespace Sys2Proof.Laws

/-- The code of i is selected by the row of i. -/
def EncodesRow.Statement (i : Instr) : Prop := i.row.selects (encode i) = true

theorem EncodesRow.movImm (n : Reg) (i : BitVec 8) : EncodesRow.Statement (.movImm n i) := by
  simp [EncodesRow.Statement, Instr.row, encode, OpRow.selects, and_maskNi]

theorem EncodesRow.movwPc (n : Reg) (d : BitVec 8) : EncodesRow.Statement (.movwPc n d) := by
  simp [EncodesRow.Statement, Instr.row, encode, OpRow.selects, and_maskNi]

theorem EncodesRow.movlPc (n : Reg) (d : BitVec 8) : EncodesRow.Statement (.movlPc n d) := by
  simp [EncodesRow.Statement, Instr.row, encode, OpRow.selects, and_maskNi]

theorem EncodesRow.mov (n : Reg) (m : Reg) : EncodesRow.Statement (.mov n m) := by
  simp [EncodesRow.Statement, Instr.row, encode, OpRow.selects, and_maskNm]

theorem EncodesRow.movbStore (n : Reg) (m : Reg) : EncodesRow.Statement (.movbStore n m) := by
  simp [EncodesRow.Statement, Instr.row, encode, OpRow.selects, and_maskNm]

theorem EncodesRow.movwStore (n : Reg) (m : Reg) : EncodesRow.Statement (.movwStore n m) := by
  simp [EncodesRow.Statement, Instr.row, encode, OpRow.selects, and_maskNm]

theorem EncodesRow.movlStore (n : Reg) (m : Reg) : EncodesRow.Statement (.movlStore n m) := by
  simp [EncodesRow.Statement, Instr.row, encode, OpRow.selects, and_maskNm]

theorem EncodesRow.movbLoad (n : Reg) (m : Reg) : EncodesRow.Statement (.movbLoad n m) := by
  simp [EncodesRow.Statement, Instr.row, encode, OpRow.selects, and_maskNm]

theorem EncodesRow.movwLoad (n : Reg) (m : Reg) : EncodesRow.Statement (.movwLoad n m) := by
  simp [EncodesRow.Statement, Instr.row, encode, OpRow.selects, and_maskNm]

theorem EncodesRow.movlLoad (n : Reg) (m : Reg) : EncodesRow.Statement (.movlLoad n m) := by
  simp [EncodesRow.Statement, Instr.row, encode, OpRow.selects, and_maskNm]

theorem EncodesRow.movbPreDec (n : Reg) (m : Reg) : EncodesRow.Statement (.movbPreDec n m) := by
  simp [EncodesRow.Statement, Instr.row, encode, OpRow.selects, and_maskNm]

theorem EncodesRow.movwPreDec (n : Reg) (m : Reg) : EncodesRow.Statement (.movwPreDec n m) := by
  simp [EncodesRow.Statement, Instr.row, encode, OpRow.selects, and_maskNm]

theorem EncodesRow.movlPreDec (n : Reg) (m : Reg) : EncodesRow.Statement (.movlPreDec n m) := by
  simp [EncodesRow.Statement, Instr.row, encode, OpRow.selects, and_maskNm]

theorem EncodesRow.movbPostInc (n : Reg) (m : Reg) : EncodesRow.Statement (.movbPostInc n m) := by
  simp [EncodesRow.Statement, Instr.row, encode, OpRow.selects, and_maskNm]

theorem EncodesRow.movwPostInc (n : Reg) (m : Reg) : EncodesRow.Statement (.movwPostInc n m) := by
  simp [EncodesRow.Statement, Instr.row, encode, OpRow.selects, and_maskNm]

theorem EncodesRow.movlPostInc (n : Reg) (m : Reg) : EncodesRow.Statement (.movlPostInc n m) := by
  simp [EncodesRow.Statement, Instr.row, encode, OpRow.selects, and_maskNm]

theorem EncodesRow.movbStoreDisp (n : Reg) (d : BitVec 4) : EncodesRow.Statement (.movbStoreDisp n d) := by
  simp [EncodesRow.Statement, Instr.row, encode, OpRow.selects, and_maskRd]

theorem EncodesRow.movwStoreDisp (n : Reg) (d : BitVec 4) : EncodesRow.Statement (.movwStoreDisp n d) := by
  simp [EncodesRow.Statement, Instr.row, encode, OpRow.selects, and_maskRd]

theorem EncodesRow.movlStoreDisp (n : Reg) (m : Reg) (d : BitVec 4) : EncodesRow.Statement (.movlStoreDisp n m d) := by
  simp [EncodesRow.Statement, Instr.row, encode, OpRow.selects, and_maskNmd]

theorem EncodesRow.movbLoadDisp (m : Reg) (d : BitVec 4) : EncodesRow.Statement (.movbLoadDisp m d) := by
  simp [EncodesRow.Statement, Instr.row, encode, OpRow.selects, and_maskRd]

theorem EncodesRow.movwLoadDisp (m : Reg) (d : BitVec 4) : EncodesRow.Statement (.movwLoadDisp m d) := by
  simp [EncodesRow.Statement, Instr.row, encode, OpRow.selects, and_maskRd]

theorem EncodesRow.movlLoadDisp (n : Reg) (m : Reg) (d : BitVec 4) : EncodesRow.Statement (.movlLoadDisp n m d) := by
  simp [EncodesRow.Statement, Instr.row, encode, OpRow.selects, and_maskNmd]

theorem EncodesRow.movbStoreIdx (n : Reg) (m : Reg) : EncodesRow.Statement (.movbStoreIdx n m) := by
  simp [EncodesRow.Statement, Instr.row, encode, OpRow.selects, and_maskNm]

theorem EncodesRow.movwStoreIdx (n : Reg) (m : Reg) : EncodesRow.Statement (.movwStoreIdx n m) := by
  simp [EncodesRow.Statement, Instr.row, encode, OpRow.selects, and_maskNm]

theorem EncodesRow.movlStoreIdx (n : Reg) (m : Reg) : EncodesRow.Statement (.movlStoreIdx n m) := by
  simp [EncodesRow.Statement, Instr.row, encode, OpRow.selects, and_maskNm]

theorem EncodesRow.movbLoadIdx (n : Reg) (m : Reg) : EncodesRow.Statement (.movbLoadIdx n m) := by
  simp [EncodesRow.Statement, Instr.row, encode, OpRow.selects, and_maskNm]

theorem EncodesRow.movwLoadIdx (n : Reg) (m : Reg) : EncodesRow.Statement (.movwLoadIdx n m) := by
  simp [EncodesRow.Statement, Instr.row, encode, OpRow.selects, and_maskNm]

theorem EncodesRow.movlLoadIdx (n : Reg) (m : Reg) : EncodesRow.Statement (.movlLoadIdx n m) := by
  simp [EncodesRow.Statement, Instr.row, encode, OpRow.selects, and_maskNm]

theorem EncodesRow.movbStoreGbr (d : BitVec 8) : EncodesRow.Statement (.movbStoreGbr d) := by
  simp [EncodesRow.Statement, Instr.row, encode, OpRow.selects, and_maskI]

theorem EncodesRow.movwStoreGbr (d : BitVec 8) : EncodesRow.Statement (.movwStoreGbr d) := by
  simp [EncodesRow.Statement, Instr.row, encode, OpRow.selects, and_maskI]

theorem EncodesRow.movlStoreGbr (d : BitVec 8) : EncodesRow.Statement (.movlStoreGbr d) := by
  simp [EncodesRow.Statement, Instr.row, encode, OpRow.selects, and_maskI]

theorem EncodesRow.movbLoadGbr (d : BitVec 8) : EncodesRow.Statement (.movbLoadGbr d) := by
  simp [EncodesRow.Statement, Instr.row, encode, OpRow.selects, and_maskI]

theorem EncodesRow.movwLoadGbr (d : BitVec 8) : EncodesRow.Statement (.movwLoadGbr d) := by
  simp [EncodesRow.Statement, Instr.row, encode, OpRow.selects, and_maskI]

theorem EncodesRow.movlLoadGbr (d : BitVec 8) : EncodesRow.Statement (.movlLoadGbr d) := by
  simp [EncodesRow.Statement, Instr.row, encode, OpRow.selects, and_maskI]

theorem EncodesRow.mova (d : BitVec 8) : EncodesRow.Statement (.mova d) := by
  simp [EncodesRow.Statement, Instr.row, encode, OpRow.selects, and_maskI]

theorem EncodesRow.movt (n : Reg) : EncodesRow.Statement (.movt n) := by
  simp [EncodesRow.Statement, Instr.row, encode, OpRow.selects, and_maskN]

theorem EncodesRow.swapb (n : Reg) (m : Reg) : EncodesRow.Statement (.swapb n m) := by
  simp [EncodesRow.Statement, Instr.row, encode, OpRow.selects, and_maskNm]

theorem EncodesRow.swapw (n : Reg) (m : Reg) : EncodesRow.Statement (.swapw n m) := by
  simp [EncodesRow.Statement, Instr.row, encode, OpRow.selects, and_maskNm]

theorem EncodesRow.xtrct (n : Reg) (m : Reg) : EncodesRow.Statement (.xtrct n m) := by
  simp [EncodesRow.Statement, Instr.row, encode, OpRow.selects, and_maskNm]

theorem EncodesRow.add (n : Reg) (m : Reg) : EncodesRow.Statement (.add n m) := by
  simp [EncodesRow.Statement, Instr.row, encode, OpRow.selects, and_maskNm]

theorem EncodesRow.addImm (n : Reg) (i : BitVec 8) : EncodesRow.Statement (.addImm n i) := by
  simp [EncodesRow.Statement, Instr.row, encode, OpRow.selects, and_maskNi]

theorem EncodesRow.addc (n : Reg) (m : Reg) : EncodesRow.Statement (.addc n m) := by
  simp [EncodesRow.Statement, Instr.row, encode, OpRow.selects, and_maskNm]

theorem EncodesRow.addv (n : Reg) (m : Reg) : EncodesRow.Statement (.addv n m) := by
  simp [EncodesRow.Statement, Instr.row, encode, OpRow.selects, and_maskNm]

theorem EncodesRow.cmpEqImm (i : BitVec 8) : EncodesRow.Statement (.cmpEqImm i) := by
  simp [EncodesRow.Statement, Instr.row, encode, OpRow.selects, and_maskI]

theorem EncodesRow.cmpEq (n : Reg) (m : Reg) : EncodesRow.Statement (.cmpEq n m) := by
  simp [EncodesRow.Statement, Instr.row, encode, OpRow.selects, and_maskNm]

theorem EncodesRow.cmpHs (n : Reg) (m : Reg) : EncodesRow.Statement (.cmpHs n m) := by
  simp [EncodesRow.Statement, Instr.row, encode, OpRow.selects, and_maskNm]

theorem EncodesRow.cmpGe (n : Reg) (m : Reg) : EncodesRow.Statement (.cmpGe n m) := by
  simp [EncodesRow.Statement, Instr.row, encode, OpRow.selects, and_maskNm]

theorem EncodesRow.cmpHi (n : Reg) (m : Reg) : EncodesRow.Statement (.cmpHi n m) := by
  simp [EncodesRow.Statement, Instr.row, encode, OpRow.selects, and_maskNm]

theorem EncodesRow.cmpGt (n : Reg) (m : Reg) : EncodesRow.Statement (.cmpGt n m) := by
  simp [EncodesRow.Statement, Instr.row, encode, OpRow.selects, and_maskNm]

theorem EncodesRow.cmpPz (n : Reg) : EncodesRow.Statement (.cmpPz n) := by
  simp [EncodesRow.Statement, Instr.row, encode, OpRow.selects, and_maskN]

theorem EncodesRow.cmpPl (n : Reg) : EncodesRow.Statement (.cmpPl n) := by
  simp [EncodesRow.Statement, Instr.row, encode, OpRow.selects, and_maskN]

theorem EncodesRow.cmpStr (n : Reg) (m : Reg) : EncodesRow.Statement (.cmpStr n m) := by
  simp [EncodesRow.Statement, Instr.row, encode, OpRow.selects, and_maskNm]

theorem EncodesRow.div1 (n : Reg) (m : Reg) : EncodesRow.Statement (.div1 n m) := by
  simp [EncodesRow.Statement, Instr.row, encode, OpRow.selects, and_maskNm]

theorem EncodesRow.div0s (n : Reg) (m : Reg) : EncodesRow.Statement (.div0s n m) := by
  simp [EncodesRow.Statement, Instr.row, encode, OpRow.selects, and_maskNm]

theorem EncodesRow.div0u : EncodesRow.Statement .div0u := rfl

theorem EncodesRow.extsb (n : Reg) (m : Reg) : EncodesRow.Statement (.extsb n m) := by
  simp [EncodesRow.Statement, Instr.row, encode, OpRow.selects, and_maskNm]

theorem EncodesRow.extsw (n : Reg) (m : Reg) : EncodesRow.Statement (.extsw n m) := by
  simp [EncodesRow.Statement, Instr.row, encode, OpRow.selects, and_maskNm]

theorem EncodesRow.extub (n : Reg) (m : Reg) : EncodesRow.Statement (.extub n m) := by
  simp [EncodesRow.Statement, Instr.row, encode, OpRow.selects, and_maskNm]

theorem EncodesRow.extuw (n : Reg) (m : Reg) : EncodesRow.Statement (.extuw n m) := by
  simp [EncodesRow.Statement, Instr.row, encode, OpRow.selects, and_maskNm]

theorem EncodesRow.macw (n : Reg) (m : Reg) : EncodesRow.Statement (.macw n m) := by
  simp [EncodesRow.Statement, Instr.row, encode, OpRow.selects, and_maskNm]

theorem EncodesRow.muls (n : Reg) (m : Reg) : EncodesRow.Statement (.muls n m) := by
  simp [EncodesRow.Statement, Instr.row, encode, OpRow.selects, and_maskNm]

theorem EncodesRow.mulu (n : Reg) (m : Reg) : EncodesRow.Statement (.mulu n m) := by
  simp [EncodesRow.Statement, Instr.row, encode, OpRow.selects, and_maskNm]

theorem EncodesRow.neg (n : Reg) (m : Reg) : EncodesRow.Statement (.neg n m) := by
  simp [EncodesRow.Statement, Instr.row, encode, OpRow.selects, and_maskNm]

theorem EncodesRow.negc (n : Reg) (m : Reg) : EncodesRow.Statement (.negc n m) := by
  simp [EncodesRow.Statement, Instr.row, encode, OpRow.selects, and_maskNm]

theorem EncodesRow.sub (n : Reg) (m : Reg) : EncodesRow.Statement (.sub n m) := by
  simp [EncodesRow.Statement, Instr.row, encode, OpRow.selects, and_maskNm]

theorem EncodesRow.subc (n : Reg) (m : Reg) : EncodesRow.Statement (.subc n m) := by
  simp [EncodesRow.Statement, Instr.row, encode, OpRow.selects, and_maskNm]

theorem EncodesRow.subv (n : Reg) (m : Reg) : EncodesRow.Statement (.subv n m) := by
  simp [EncodesRow.Statement, Instr.row, encode, OpRow.selects, and_maskNm]

theorem EncodesRow.andReg (n : Reg) (m : Reg) : EncodesRow.Statement (.andReg n m) := by
  simp [EncodesRow.Statement, Instr.row, encode, OpRow.selects, and_maskNm]

theorem EncodesRow.andImm (i : BitVec 8) : EncodesRow.Statement (.andImm i) := by
  simp [EncodesRow.Statement, Instr.row, encode, OpRow.selects, and_maskI]

theorem EncodesRow.andByte (i : BitVec 8) : EncodesRow.Statement (.andByte i) := by
  simp [EncodesRow.Statement, Instr.row, encode, OpRow.selects, and_maskI]

theorem EncodesRow.notReg (n : Reg) (m : Reg) : EncodesRow.Statement (.notReg n m) := by
  simp [EncodesRow.Statement, Instr.row, encode, OpRow.selects, and_maskNm]

theorem EncodesRow.orReg (n : Reg) (m : Reg) : EncodesRow.Statement (.orReg n m) := by
  simp [EncodesRow.Statement, Instr.row, encode, OpRow.selects, and_maskNm]

theorem EncodesRow.orImm (i : BitVec 8) : EncodesRow.Statement (.orImm i) := by
  simp [EncodesRow.Statement, Instr.row, encode, OpRow.selects, and_maskI]

theorem EncodesRow.orByte (i : BitVec 8) : EncodesRow.Statement (.orByte i) := by
  simp [EncodesRow.Statement, Instr.row, encode, OpRow.selects, and_maskI]

theorem EncodesRow.tasb (n : Reg) : EncodesRow.Statement (.tasb n) := by
  simp [EncodesRow.Statement, Instr.row, encode, OpRow.selects, and_maskN]

theorem EncodesRow.tstReg (n : Reg) (m : Reg) : EncodesRow.Statement (.tstReg n m) := by
  simp [EncodesRow.Statement, Instr.row, encode, OpRow.selects, and_maskNm]

theorem EncodesRow.tstImm (i : BitVec 8) : EncodesRow.Statement (.tstImm i) := by
  simp [EncodesRow.Statement, Instr.row, encode, OpRow.selects, and_maskI]

theorem EncodesRow.tstByte (i : BitVec 8) : EncodesRow.Statement (.tstByte i) := by
  simp [EncodesRow.Statement, Instr.row, encode, OpRow.selects, and_maskI]

theorem EncodesRow.xorReg (n : Reg) (m : Reg) : EncodesRow.Statement (.xorReg n m) := by
  simp [EncodesRow.Statement, Instr.row, encode, OpRow.selects, and_maskNm]

theorem EncodesRow.xorImm (i : BitVec 8) : EncodesRow.Statement (.xorImm i) := by
  simp [EncodesRow.Statement, Instr.row, encode, OpRow.selects, and_maskI]

theorem EncodesRow.xorByte (i : BitVec 8) : EncodesRow.Statement (.xorByte i) := by
  simp [EncodesRow.Statement, Instr.row, encode, OpRow.selects, and_maskI]

theorem EncodesRow.rotl (n : Reg) : EncodesRow.Statement (.rotl n) := by
  simp [EncodesRow.Statement, Instr.row, encode, OpRow.selects, and_maskN]

theorem EncodesRow.rotr (n : Reg) : EncodesRow.Statement (.rotr n) := by
  simp [EncodesRow.Statement, Instr.row, encode, OpRow.selects, and_maskN]

theorem EncodesRow.rotcl (n : Reg) : EncodesRow.Statement (.rotcl n) := by
  simp [EncodesRow.Statement, Instr.row, encode, OpRow.selects, and_maskN]

theorem EncodesRow.rotcr (n : Reg) : EncodesRow.Statement (.rotcr n) := by
  simp [EncodesRow.Statement, Instr.row, encode, OpRow.selects, and_maskN]

theorem EncodesRow.shal (n : Reg) : EncodesRow.Statement (.shal n) := by
  simp [EncodesRow.Statement, Instr.row, encode, OpRow.selects, and_maskN]

theorem EncodesRow.shar (n : Reg) : EncodesRow.Statement (.shar n) := by
  simp [EncodesRow.Statement, Instr.row, encode, OpRow.selects, and_maskN]

theorem EncodesRow.shll (n : Reg) : EncodesRow.Statement (.shll n) := by
  simp [EncodesRow.Statement, Instr.row, encode, OpRow.selects, and_maskN]

theorem EncodesRow.shlr (n : Reg) : EncodesRow.Statement (.shlr n) := by
  simp [EncodesRow.Statement, Instr.row, encode, OpRow.selects, and_maskN]

theorem EncodesRow.shll2 (n : Reg) : EncodesRow.Statement (.shll2 n) := by
  simp [EncodesRow.Statement, Instr.row, encode, OpRow.selects, and_maskN]

theorem EncodesRow.shlr2 (n : Reg) : EncodesRow.Statement (.shlr2 n) := by
  simp [EncodesRow.Statement, Instr.row, encode, OpRow.selects, and_maskN]

theorem EncodesRow.shll8 (n : Reg) : EncodesRow.Statement (.shll8 n) := by
  simp [EncodesRow.Statement, Instr.row, encode, OpRow.selects, and_maskN]

theorem EncodesRow.shlr8 (n : Reg) : EncodesRow.Statement (.shlr8 n) := by
  simp [EncodesRow.Statement, Instr.row, encode, OpRow.selects, and_maskN]

theorem EncodesRow.shll16 (n : Reg) : EncodesRow.Statement (.shll16 n) := by
  simp [EncodesRow.Statement, Instr.row, encode, OpRow.selects, and_maskN]

theorem EncodesRow.shlr16 (n : Reg) : EncodesRow.Statement (.shlr16 n) := by
  simp [EncodesRow.Statement, Instr.row, encode, OpRow.selects, and_maskN]

theorem EncodesRow.bf (d : BitVec 8) : EncodesRow.Statement (.bf d) := by
  simp [EncodesRow.Statement, Instr.row, encode, OpRow.selects, and_maskI]

theorem EncodesRow.bt (d : BitVec 8) : EncodesRow.Statement (.bt d) := by
  simp [EncodesRow.Statement, Instr.row, encode, OpRow.selects, and_maskI]

theorem EncodesRow.bra (d : BitVec 12) : EncodesRow.Statement (.bra d) := by
  simp [EncodesRow.Statement, Instr.row, encode, OpRow.selects, and_maskD]

theorem EncodesRow.bsr (d : BitVec 12) : EncodesRow.Statement (.bsr d) := by
  simp [EncodesRow.Statement, Instr.row, encode, OpRow.selects, and_maskD]

theorem EncodesRow.jmp (m : Reg) : EncodesRow.Statement (.jmp m) := by
  simp [EncodesRow.Statement, Instr.row, encode, OpRow.selects, and_maskN]

theorem EncodesRow.jsr (m : Reg) : EncodesRow.Statement (.jsr m) := by
  simp [EncodesRow.Statement, Instr.row, encode, OpRow.selects, and_maskN]

theorem EncodesRow.rts : EncodesRow.Statement .rts := rfl

theorem EncodesRow.clrt : EncodesRow.Statement .clrt := rfl

theorem EncodesRow.clrmac : EncodesRow.Statement .clrmac := rfl

theorem EncodesRow.ldcSr (m : Reg) : EncodesRow.Statement (.ldcSr m) := by
  simp [EncodesRow.Statement, Instr.row, encode, OpRow.selects, and_maskN]

theorem EncodesRow.ldcGbr (m : Reg) : EncodesRow.Statement (.ldcGbr m) := by
  simp [EncodesRow.Statement, Instr.row, encode, OpRow.selects, and_maskN]

theorem EncodesRow.ldcVbr (m : Reg) : EncodesRow.Statement (.ldcVbr m) := by
  simp [EncodesRow.Statement, Instr.row, encode, OpRow.selects, and_maskN]

theorem EncodesRow.ldclSr (m : Reg) : EncodesRow.Statement (.ldclSr m) := by
  simp [EncodesRow.Statement, Instr.row, encode, OpRow.selects, and_maskN]

theorem EncodesRow.ldclGbr (m : Reg) : EncodesRow.Statement (.ldclGbr m) := by
  simp [EncodesRow.Statement, Instr.row, encode, OpRow.selects, and_maskN]

theorem EncodesRow.ldclVbr (m : Reg) : EncodesRow.Statement (.ldclVbr m) := by
  simp [EncodesRow.Statement, Instr.row, encode, OpRow.selects, and_maskN]

theorem EncodesRow.ldsMach (m : Reg) : EncodesRow.Statement (.ldsMach m) := by
  simp [EncodesRow.Statement, Instr.row, encode, OpRow.selects, and_maskN]

theorem EncodesRow.ldsMacl (m : Reg) : EncodesRow.Statement (.ldsMacl m) := by
  simp [EncodesRow.Statement, Instr.row, encode, OpRow.selects, and_maskN]

theorem EncodesRow.ldsPr (m : Reg) : EncodesRow.Statement (.ldsPr m) := by
  simp [EncodesRow.Statement, Instr.row, encode, OpRow.selects, and_maskN]

theorem EncodesRow.ldslMach (m : Reg) : EncodesRow.Statement (.ldslMach m) := by
  simp [EncodesRow.Statement, Instr.row, encode, OpRow.selects, and_maskN]

theorem EncodesRow.ldslMacl (m : Reg) : EncodesRow.Statement (.ldslMacl m) := by
  simp [EncodesRow.Statement, Instr.row, encode, OpRow.selects, and_maskN]

theorem EncodesRow.ldslPr (m : Reg) : EncodesRow.Statement (.ldslPr m) := by
  simp [EncodesRow.Statement, Instr.row, encode, OpRow.selects, and_maskN]

theorem EncodesRow.nop : EncodesRow.Statement .nop := rfl

theorem EncodesRow.rte : EncodesRow.Statement .rte := rfl

theorem EncodesRow.sett : EncodesRow.Statement .sett := rfl

theorem EncodesRow.sleep : EncodesRow.Statement .sleep := rfl

theorem EncodesRow.stcSr (n : Reg) : EncodesRow.Statement (.stcSr n) := by
  simp [EncodesRow.Statement, Instr.row, encode, OpRow.selects, and_maskN]

theorem EncodesRow.stcGbr (n : Reg) : EncodesRow.Statement (.stcGbr n) := by
  simp [EncodesRow.Statement, Instr.row, encode, OpRow.selects, and_maskN]

theorem EncodesRow.stcVbr (n : Reg) : EncodesRow.Statement (.stcVbr n) := by
  simp [EncodesRow.Statement, Instr.row, encode, OpRow.selects, and_maskN]

theorem EncodesRow.stclSr (n : Reg) : EncodesRow.Statement (.stclSr n) := by
  simp [EncodesRow.Statement, Instr.row, encode, OpRow.selects, and_maskN]

theorem EncodesRow.stclGbr (n : Reg) : EncodesRow.Statement (.stclGbr n) := by
  simp [EncodesRow.Statement, Instr.row, encode, OpRow.selects, and_maskN]

theorem EncodesRow.stclVbr (n : Reg) : EncodesRow.Statement (.stclVbr n) := by
  simp [EncodesRow.Statement, Instr.row, encode, OpRow.selects, and_maskN]

theorem EncodesRow.stsMach (n : Reg) : EncodesRow.Statement (.stsMach n) := by
  simp [EncodesRow.Statement, Instr.row, encode, OpRow.selects, and_maskN]

theorem EncodesRow.stsMacl (n : Reg) : EncodesRow.Statement (.stsMacl n) := by
  simp [EncodesRow.Statement, Instr.row, encode, OpRow.selects, and_maskN]

theorem EncodesRow.stsPr (n : Reg) : EncodesRow.Statement (.stsPr n) := by
  simp [EncodesRow.Statement, Instr.row, encode, OpRow.selects, and_maskN]

theorem EncodesRow.stslMach (n : Reg) : EncodesRow.Statement (.stslMach n) := by
  simp [EncodesRow.Statement, Instr.row, encode, OpRow.selects, and_maskN]

theorem EncodesRow.stslMacl (n : Reg) : EncodesRow.Statement (.stslMacl n) := by
  simp [EncodesRow.Statement, Instr.row, encode, OpRow.selects, and_maskN]

theorem EncodesRow.stslPr (n : Reg) : EncodesRow.Statement (.stslPr n) := by
  simp [EncodesRow.Statement, Instr.row, encode, OpRow.selects, and_maskN]

theorem EncodesRow.trapa (i : BitVec 8) : EncodesRow.Statement (.trapa i) := by
  simp [EncodesRow.Statement, Instr.row, encode, OpRow.selects, and_maskI]

end Sys2Proof.Laws
end

