-- ==== Sys2Proof/Tests/Slice0.lean ====
section
/-! SUPPORT. The model's own tests. The words decoded are written out from the encodings of spec/opcode_table.json; the
steps and their results are vectors of spec/94_source_examples.md and spec/95_test_vectors.md (the rule is named at each
test); the witnesses show for each obligation with hypotheses a concrete state and operands that meet all of them. -/

set_option Elab.async false
set_option maxRecDepth 16384

namespace Sys2Proof.Tests

open Sys2Proof.Machine

/-! ### Helpers -/

/-- Bytes in ascending address order. -/
def putBytes (s : State) (a : Word) : List Byte → State
  | [] => s
  | b :: bs => putBytes (s.putByte a b) (a + 1#32) bs

/-- The state of a vector: the launch defaults, changed by `before`, with one instruction at pc. -/
def vector (op : Nat) (before : State → State) : State := (before State.reset).withFetchWord 16 op

/-- One step of the vector gives exactly the state `after` makes of the state before. -/
def runs (op : Nat) (before after : State → State) : Bool :=
  match step (vector op before) with
  | .next t => decide (t = after (vector op before))
  | _ => false

/-- One step of the vector stops with this fault. -/
def stops (op : Nat) (before : State → State) (f : Fault) : Bool :=
  match step (vector op before) with
  | .fault g => decide (g = f)
  | _ => false

/-- The step of s is refused for this reason. -/
def refuses (s : State) (r : Refusal) : Bool :=
  match step s with
  | .refused q => decide (q = r)
  | _ => false

/-- The state a step answers. -/
def stateOf (o : Result State) : State :=
  match o with
  | .next t => t
  | _ => State.reset

/-- Whether a step answers a state. -/
def completes (o : Result State) : Bool :=
  match o with
  | .next _ => true
  | _ => false

theorem eq_next_of_completes {o : Result State} (h : completes o = true) : o = .next (stateOf o) := by
  cases o <;> simp_all [completes, stateOf]

/-! ### Well-formedness -/

theorem test_wellFormed_codes_refused :
    definedCode 0x0000#16 = false ∧ definedCode 0xFFFF#16 = false ∧ definedCode 0x0108#16 = false ∧
      definedCode 0x3129#16 = false ∧ definedCode 0x8D00#16 = false := by decide

theorem test_wellFormed_codes_accepted :
    definedCode 0x0009#16 = true ∧ definedCode 0xE17F#16 = true ∧ definedCode 0xC7FF#16 = true := by decide

theorem test_wellFormed_branch_without_slot_refused : slotsWellFormed [.nop, .bra 0#12] = false := by decide

theorem test_wellFormed_branch_in_slot_refused :
    slotsWellFormed [.jmp 1#4, .bt 0#8] = false ∧ slotsWellFormed [.rts, .rts, .nop] = false ∧
      slotsWellFormed [.bsr 0#12, .mova 0#8] = false ∧ slotsWellFormed [.rte, .trapa 0#8] = false ∧
      slotsWellFormed [.jsr 2#4, .movwPc 1#4 0#8] = false := by decide

theorem test_wellFormed_filled_slot_accepted : slotsWellFormed [.rts, .add 0#4 1#4, .bf 0#8, .nop] = true := by decide

theorem test_launchable_refuses_odd_pc :
    ¬ State.launchable { vector 0x0009 id with pc := 0x00001001#32 } := by decide

theorem test_launchable_refuses_pc_outside_text : ¬ State.launchable State.reset := by decide

theorem test_launchable_accepts_a_loaded_program : State.launchable (vector 0x0009 id) := by decide

/-! ### Decoding: words written out from the encodings of spec/opcode_table.json -/

theorem test_decode_data_transfer_1 :
    decode 0b1110011010010110#16 = some (.movImm 0b0110#4 0b10010110#8) ∧
    decode 0b1001011001101001#16 = some (.movwPc 0b0110#4 0b01101001#8) ∧
    decode 0b1101011001101001#16 = some (.movlPc 0b0110#4 0b01101001#8) ∧
    decode 0b0110011010110011#16 = some (.mov 0b0110#4 0b1011#4) ∧
    decode 0b0010011010110000#16 = some (.movbStore 0b0110#4 0b1011#4) ∧
    decode 0b0010011010110001#16 = some (.movwStore 0b0110#4 0b1011#4) ∧
    decode 0b0010011010110010#16 = some (.movlStore 0b0110#4 0b1011#4) ∧
    decode 0b0110011010110000#16 = some (.movbLoad 0b0110#4 0b1011#4) ∧
    decode 0b0110011010110001#16 = some (.movwLoad 0b0110#4 0b1011#4) ∧
    decode 0b0110011010110010#16 = some (.movlLoad 0b0110#4 0b1011#4) ∧
    decode 0b0010011010110100#16 = some (.movbPreDec 0b0110#4 0b1011#4) ∧
    decode 0b0010011010110101#16 = some (.movwPreDec 0b0110#4 0b1011#4) ∧
    decode 0b0010011010110110#16 = some (.movlPreDec 0b0110#4 0b1011#4) := by decide

theorem test_decode_data_transfer_2 :
    decode 0b0110011010110100#16 = some (.movbPostInc 0b0110#4 0b1011#4) ∧
    decode 0b0110011010110101#16 = some (.movwPostInc 0b0110#4 0b1011#4) ∧
    decode 0b0110011010110110#16 = some (.movlPostInc 0b0110#4 0b1011#4) ∧
    decode 0b1000000001101101#16 = some (.movbStoreDisp 0b0110#4 0b1101#4) ∧
    decode 0b1000000101101101#16 = some (.movwStoreDisp 0b0110#4 0b1101#4) ∧
    decode 0b0001011010111101#16 = some (.movlStoreDisp 0b0110#4 0b1011#4 0b1101#4) ∧
    decode 0b1000010010111101#16 = some (.movbLoadDisp 0b1011#4 0b1101#4) ∧
    decode 0b1000010110111101#16 = some (.movwLoadDisp 0b1011#4 0b1101#4) ∧
    decode 0b0101011010111101#16 = some (.movlLoadDisp 0b0110#4 0b1011#4 0b1101#4) ∧
    decode 0b0000011010110100#16 = some (.movbStoreIdx 0b0110#4 0b1011#4) ∧
    decode 0b0000011010110101#16 = some (.movwStoreIdx 0b0110#4 0b1011#4) ∧
    decode 0b0000011010110110#16 = some (.movlStoreIdx 0b0110#4 0b1011#4) ∧
    decode 0b0000011010111100#16 = some (.movbLoadIdx 0b0110#4 0b1011#4) := by decide

theorem test_decode_data_transfer_3 :
    decode 0b0000011010111101#16 = some (.movwLoadIdx 0b0110#4 0b1011#4) ∧
    decode 0b0000011010111110#16 = some (.movlLoadIdx 0b0110#4 0b1011#4) ∧
    decode 0b1100000001101001#16 = some (.movbStoreGbr 0b01101001#8) ∧
    decode 0b1100000101101001#16 = some (.movwStoreGbr 0b01101001#8) ∧
    decode 0b1100001001101001#16 = some (.movlStoreGbr 0b01101001#8) ∧
    decode 0b1100010001101001#16 = some (.movbLoadGbr 0b01101001#8) ∧
    decode 0b1100010101101001#16 = some (.movwLoadGbr 0b01101001#8) ∧
    decode 0b1100011001101001#16 = some (.movlLoadGbr 0b01101001#8) ∧
    decode 0b1100011101101001#16 = some (.mova 0b01101001#8) ∧
    decode 0b0000011000101001#16 = some (.movt 0b0110#4) ∧
    decode 0b0110011010111000#16 = some (.swapb 0b0110#4 0b1011#4) ∧
    decode 0b0110011010111001#16 = some (.swapw 0b0110#4 0b1011#4) ∧
    decode 0b0010011010111101#16 = some (.xtrct 0b0110#4 0b1011#4) := by decide

theorem test_decode_arithmetic_1 :
    decode 0b0011011010111100#16 = some (.add 0b0110#4 0b1011#4) ∧
    decode 0b0111011010010110#16 = some (.addImm 0b0110#4 0b10010110#8) ∧
    decode 0b0011011010111110#16 = some (.addc 0b0110#4 0b1011#4) ∧
    decode 0b0011011010111111#16 = some (.addv 0b0110#4 0b1011#4) ∧
    decode 0b1000100010010110#16 = some (.cmpEqImm 0b10010110#8) ∧
    decode 0b0011011010110000#16 = some (.cmpEq 0b0110#4 0b1011#4) ∧
    decode 0b0011011010110010#16 = some (.cmpHs 0b0110#4 0b1011#4) ∧
    decode 0b0011011010110011#16 = some (.cmpGe 0b0110#4 0b1011#4) ∧
    decode 0b0011011010110110#16 = some (.cmpHi 0b0110#4 0b1011#4) ∧
    decode 0b0011011010110111#16 = some (.cmpGt 0b0110#4 0b1011#4) ∧
    decode 0b0100011000010001#16 = some (.cmpPz 0b0110#4) ∧
    decode 0b0100011000010101#16 = some (.cmpPl 0b0110#4) ∧
    decode 0b0010011010111100#16 = some (.cmpStr 0b0110#4 0b1011#4) := by decide

theorem test_decode_arithmetic_2 :
    decode 0b0011011010110100#16 = some (.div1 0b0110#4 0b1011#4) ∧
    decode 0b0010011010110111#16 = some (.div0s 0b0110#4 0b1011#4) ∧
    decode 0b0000000000011001#16 = some .div0u ∧
    decode 0b0110011010111110#16 = some (.extsb 0b0110#4 0b1011#4) ∧
    decode 0b0110011010111111#16 = some (.extsw 0b0110#4 0b1011#4) ∧
    decode 0b0110011010111100#16 = some (.extub 0b0110#4 0b1011#4) ∧
    decode 0b0110011010111101#16 = some (.extuw 0b0110#4 0b1011#4) ∧
    decode 0b0100011010111111#16 = some (.macw 0b0110#4 0b1011#4) ∧
    decode 0b0010011010111111#16 = some (.muls 0b0110#4 0b1011#4) ∧
    decode 0b0010011010111110#16 = some (.mulu 0b0110#4 0b1011#4) ∧
    decode 0b0110011010111011#16 = some (.neg 0b0110#4 0b1011#4) ∧
    decode 0b0110011010111010#16 = some (.negc 0b0110#4 0b1011#4) ∧
    decode 0b0011011010111000#16 = some (.sub 0b0110#4 0b1011#4) := by decide

theorem test_decode_arithmetic_3 :
    decode 0b0011011010111010#16 = some (.subc 0b0110#4 0b1011#4) ∧
    decode 0b0011011010111011#16 = some (.subv 0b0110#4 0b1011#4) := by decide

theorem test_decode_logic_1 :
    decode 0b0010011010111001#16 = some (.andReg 0b0110#4 0b1011#4) ∧
    decode 0b1100100110010110#16 = some (.andImm 0b10010110#8) ∧
    decode 0b1100110110010110#16 = some (.andByte 0b10010110#8) ∧
    decode 0b0110011010110111#16 = some (.notReg 0b0110#4 0b1011#4) ∧
    decode 0b0010011010111011#16 = some (.orReg 0b0110#4 0b1011#4) ∧
    decode 0b1100101110010110#16 = some (.orImm 0b10010110#8) ∧
    decode 0b1100111110010110#16 = some (.orByte 0b10010110#8) ∧
    decode 0b0100011000011011#16 = some (.tasb 0b0110#4) ∧
    decode 0b0010011010111000#16 = some (.tstReg 0b0110#4 0b1011#4) ∧
    decode 0b1100100010010110#16 = some (.tstImm 0b10010110#8) ∧
    decode 0b1100110010010110#16 = some (.tstByte 0b10010110#8) ∧
    decode 0b0010011010111010#16 = some (.xorReg 0b0110#4 0b1011#4) ∧
    decode 0b1100101010010110#16 = some (.xorImm 0b10010110#8) := by decide

theorem test_decode_logic_2 :
    decode 0b1100111010010110#16 = some (.xorByte 0b10010110#8) := by decide

theorem test_decode_shift_1 :
    decode 0b0100011000000100#16 = some (.rotl 0b0110#4) ∧
    decode 0b0100011000000101#16 = some (.rotr 0b0110#4) ∧
    decode 0b0100011000100100#16 = some (.rotcl 0b0110#4) ∧
    decode 0b0100011000100101#16 = some (.rotcr 0b0110#4) ∧
    decode 0b0100011000100000#16 = some (.shal 0b0110#4) ∧
    decode 0b0100011000100001#16 = some (.shar 0b0110#4) ∧
    decode 0b0100011000000000#16 = some (.shll 0b0110#4) ∧
    decode 0b0100011000000001#16 = some (.shlr 0b0110#4) ∧
    decode 0b0100011000001000#16 = some (.shll2 0b0110#4) ∧
    decode 0b0100011000001001#16 = some (.shlr2 0b0110#4) ∧
    decode 0b0100011000011000#16 = some (.shll8 0b0110#4) ∧
    decode 0b0100011000011001#16 = some (.shlr8 0b0110#4) ∧
    decode 0b0100011000101000#16 = some (.shll16 0b0110#4) := by decide

theorem test_decode_shift_2 :
    decode 0b0100011000101001#16 = some (.shlr16 0b0110#4) := by decide

theorem test_decode_branch_1 :
    decode 0b1000101101101001#16 = some (.bf 0b01101001#8) ∧
    decode 0b1000100101101001#16 = some (.bt 0b01101001#8) ∧
    decode 0b1010101101100101#16 = some (.bra 0b101101100101#12) ∧
    decode 0b1011101101100101#16 = some (.bsr 0b101101100101#12) ∧
    decode 0b0100101100101011#16 = some (.jmp 0b1011#4) ∧
    decode 0b0100101100001011#16 = some (.jsr 0b1011#4) ∧
    decode 0b0000000000001011#16 = some .rts := by decide

theorem test_decode_system_control_1 :
    decode 0b0000000000001000#16 = some .clrt ∧
    decode 0b0000000000101000#16 = some .clrmac ∧
    decode 0b0100101100001110#16 = some (.ldcSr 0b1011#4) ∧
    decode 0b0100101100011110#16 = some (.ldcGbr 0b1011#4) ∧
    decode 0b0100101100101110#16 = some (.ldcVbr 0b1011#4) ∧
    decode 0b0100101100000111#16 = some (.ldclSr 0b1011#4) ∧
    decode 0b0100101100010111#16 = some (.ldclGbr 0b1011#4) ∧
    decode 0b0100101100100111#16 = some (.ldclVbr 0b1011#4) ∧
    decode 0b0100101100001010#16 = some (.ldsMach 0b1011#4) ∧
    decode 0b0100101100011010#16 = some (.ldsMacl 0b1011#4) ∧
    decode 0b0100101100101010#16 = some (.ldsPr 0b1011#4) ∧
    decode 0b0100101100000110#16 = some (.ldslMach 0b1011#4) ∧
    decode 0b0100101100010110#16 = some (.ldslMacl 0b1011#4) := by decide

theorem test_decode_system_control_2 :
    decode 0b0100101100100110#16 = some (.ldslPr 0b1011#4) ∧
    decode 0b0000000000001001#16 = some .nop ∧
    decode 0b0000000000101011#16 = some .rte ∧
    decode 0b0000000000011000#16 = some .sett ∧
    decode 0b0000000000011011#16 = some .sleep ∧
    decode 0b0000011000000010#16 = some (.stcSr 0b0110#4) ∧
    decode 0b0000011000010010#16 = some (.stcGbr 0b0110#4) ∧
    decode 0b0000011000100010#16 = some (.stcVbr 0b0110#4) ∧
    decode 0b0100011000000011#16 = some (.stclSr 0b0110#4) ∧
    decode 0b0100011000010011#16 = some (.stclGbr 0b0110#4) ∧
    decode 0b0100011000100011#16 = some (.stclVbr 0b0110#4) ∧
    decode 0b0000011000001010#16 = some (.stsMach 0b0110#4) ∧
    decode 0b0000011000011010#16 = some (.stsMacl 0b0110#4) := by decide

theorem test_decode_system_control_3 :
    decode 0b0000011000101010#16 = some (.stsPr 0b0110#4) ∧
    decode 0b0100011000000010#16 = some (.stslMach 0b0110#4) ∧
    decode 0b0100011000010010#16 = some (.stslMacl 0b0110#4) ∧
    decode 0b0100011000100010#16 = some (.stslPr 0b0110#4) ∧
    decode 0b1100001110010110#16 = some (.trapa 0b10010110#8) := by decide

theorem test_decode_bytes_first_is_most_significant :
    decodeBytes [0x63#8, 0x23#8, 0x00#8] = .ok (.mov 3#4 2#4, [0x00#8]) := by rfl

theorem test_decode_bytes_truncated : decodeBytes [0x63#8] = .error .truncated := by rfl

theorem test_decode_bytes_undefined : decodeBytes [0x00#8, 0x00#8] = .error (.undefinedCode 0x0000#16) := by rfl

theorem test_decode_table_word : decodeTableWord 16 0x6323 = some (.mov 3#4 2#4) := by decide

theorem test_encode_a_push : encode (.movlPreDec 15#4 3#4) = 0x2F36#16 := by decide

/-! ### One step of each instruction -/

/-- MOV #H'80,R1 (R121). -/
theorem test_movImm : runs 0xE180 id (fun s => { s with pc := 0x1002 }.setReg 1 0xFFFFFF80) := by decide

/-- MOV.W @(0,PC),R1 (R122). -/
theorem test_movwPc :
    runs 0x9100 (fun s => putBytes s 0x1004 [0x80, 0x00])
      (fun s => { s with pc := 0x1002 }.setReg 1 0xFFFF8000) := by decide

/-- MOV.W @(510,PC),R1 (R122). -/
theorem test_movwPc_upper :
    runs 0x91FF (fun s => putBytes { s with pc := 0x1002 } 0x1204 [0x12, 0x34])
      (fun s => { s with pc := 0x1004 }.setReg 1 0x1234) := by decide

/-- MOV.L @(4,PC),R2 (R123). -/
theorem test_movlPc :
    runs 0xD201 (fun s => putBytes s 0x1008 [0x12, 0x34, 0x56, 0x78])
      (fun s => { s with pc := 0x1002 }.setReg 2 0x12345678) := by decide

/-- MOV.L @(4,PC),R2 (R123). -/
theorem test_movlPc_masked_base :
    runs 0xD201 (fun s => putBytes { s with pc := 0x1002 } 0x1008 [0x12, 0x34, 0x56, 0x78])
      (fun s => { s with pc := 0x1004 }.setReg 2 0x12345678) := by decide

/-- MOV R1,R2 (R124). -/
theorem test_mov :
    runs 0x6213 (fun s => s.setReg 1 0x89ABCDEF) (fun s => { s with pc := 0x1002 }.setReg 2 0x89ABCDEF) := by decide

/-- MOV.B R2,@R1 (R125). -/
theorem test_movbStore :
    runs 0x2120
      (fun s => ((putBytes s 0x2000 [0xAA, 0xAA, 0xAA, 0xAA]).setReg 1 0x2001).setReg 2 0x12345678)
      (fun s => putBytes { s with pc := 0x1002 } 0x2001 [0x78]) := by decide

/-- MOV.W R2,@R1 (R126). -/
theorem test_movwStore :
    runs 0x2121
      (fun s => ((putBytes s 0x2000 [0xAA, 0xAA, 0xAA, 0xAA]).setReg 1 0x2002).setReg 2 0x12345678)
      (fun s => putBytes { s with pc := 0x1002 } 0x2002 [0x56, 0x78]) := by decide

/-- MOV.W R2,@R1 (R126). -/
theorem test_movwStore_odd_address_faults :
    stops 0x2121 (fun s => (s.setReg 1 0x2001).setReg 2 0x12345678) (.addressError 0x2001 .write 2) := by decide

/-- MOV.L R2,@R1 (R127). -/
theorem test_movlStore :
    runs 0x2122 (fun s => (s.setReg 1 0x2000).setReg 2 0x12345678)
      (fun s => putBytes { s with pc := 0x1002 } 0x2000 [0x12, 0x34, 0x56, 0x78]) := by decide

/-- MOV.L R2,@R1 (R127). -/
theorem test_movlStore_misaligned_faults :
    stops 0x2122 (fun s => (s.setReg 1 0x2002).setReg 2 0x12345678) (.addressError 0x2002 .write 4) := by decide

/-- MOV.B @R1,R0 (R128). -/
theorem test_movbLoad :
    runs 0x6010 (fun s => (putBytes s 0x2000 [0x7F, 0x00, 0xFF, 0x80]).setReg 1 0x2003)
      (fun s => { s with pc := 0x1002 }.setReg 0 0xFFFFFF80) := by decide

/-- MOV.W @R1,R0 (R129). -/
theorem test_movwLoad :
    runs 0x6011 (fun s => (putBytes s 0x2000 [0x7F, 0x00, 0xFF, 0x80]).setReg 1 0x2002)
      (fun s => { s with pc := 0x1002 }.setReg 0 0xFFFFFF80) := by decide

/-- MOV.L @R1,R0 (R130). -/
theorem test_movlLoad :
    runs 0x6012 (fun s => (putBytes s 0x2000 [0x7F, 0x00, 0xFF, 0x80]).setReg 1 0x2000)
      (fun s => { s with pc := 0x1002 }.setReg 0 0x7F00FF80) := by decide

/-- MOV.B R2,@-R1 (R131). -/
theorem test_movbPreDec :
    runs 0x2124 (fun s => (s.setReg 1 0x2004).setReg 2 0x12345678)
      (fun s => (putBytes { s with pc := 0x1002 } 0x2003 [0x78]).setReg 1 0x2003) := by decide

/-- MOV.W R2,@-R1 (R132). -/
theorem test_movwPreDec :
    runs 0x2125 (fun s => (s.setReg 1 0x2004).setReg 2 0x12345678)
      (fun s => (putBytes { s with pc := 0x1002 } 0x2002 [0x56, 0x78]).setReg 1 0x2002) := by decide

/-- MOV.L R3,@-R15 (R133). -/
theorem test_movlPreDec :
    runs 0x2F36 (fun s => (s.setReg 3 0x33333333).setReg 15 0xFFFF00)
      (fun s => (putBytes { s with pc := 0x1002 } 0xFFFEFC [0x33, 0x33, 0x33, 0x33]).setReg 15 0xFFFEFC) := by decide

/-- MOV.L R2,@-R2 (R133). -/
theorem test_movlPreDec_stores_old_pointer :
    runs 0x2226 (fun s => s.setReg 2 0x2004)
      (fun s => (putBytes { s with pc := 0x1002 } 0x2000 [0x00, 0x00, 0x20, 0x04]).setReg 2 0x2000) := by decide

/-- MOV.B @R2+,R0 (R134). -/
theorem test_movbPostInc :
    runs 0x6024 (fun s => (putBytes s 0x10000 [0x7F]).setReg 2 0x10000)
      (fun s => ({ s with pc := 0x1002 }.setReg 0 0x7F).setReg 2 0x10001) := by decide

/-- MOV.W @R2+,R0 (R135). -/
theorem test_movwPostInc :
    runs 0x6025 (fun s => (putBytes s 0x2002 [0xFF, 0xFE]).setReg 2 0x2002)
      (fun s => ({ s with pc := 0x1002 }.setReg 0 0xFFFFFFFE).setReg 2 0x2004) := by decide

/-- MOV.L @R2+,R0 (R136). -/
theorem test_movlPostInc :
    runs 0x6026 (fun s => (putBytes s 0xFFFFFFFC [0x12, 0x34, 0x56, 0x78]).setReg 2 0xFFFFFFFC)
      (fun s => ({ s with pc := 0x1002 }.setReg 0 0x12345678).setReg 2 0x0) := by decide

/-- MOV.L @R1+,R1 (R136). -/
theorem test_movlPostInc_same_register :
    runs 0x6116 (fun s => (putBytes s 0x2000 [0x12, 0x34, 0x56, 0x78]).setReg 1 0x2000)
      (fun s => { s with pc := 0x1002 }.setReg 1 0x12345678) := by decide

/-- MOV.B R0,@(15,R1) (R137). -/
theorem test_movbStoreDisp :
    runs 0x801F (fun s => (s.setReg 0 0xAA).setReg 1 0x1000000)
      (fun s => (putBytes { s with pc := 0x1002 } 0x100000F [0xAA]).setReg 1 0x1000000) := by decide

/-- MOV.W R0,@(30,R1) (R138). -/
theorem test_movwStoreDisp :
    runs 0x811F (fun s => (s.setReg 0 0x12345678).setReg 1 0x2000)
      (fun s => putBytes { s with pc := 0x1002 } 0x201E [0x56, 0x78]) := by decide

/-- MOV.L R2,@(60,R1) (R139). -/
theorem test_movlStoreDisp :
    runs 0x112F (fun s => (s.setReg 1 0x2000).setReg 2 0x12345678)
      (fun s => putBytes { s with pc := 0x1002 } 0x203C [0x12, 0x34, 0x56, 0x78]) := by decide

/-- MOV.B @(15,R1),R0 (R140). -/
theorem test_movbLoadDisp :
    runs 0x841F (fun s => (putBytes s 0x200F [0x80]).setReg 1 0x2000)
      (fun s => { s with pc := 0x1002 }.setReg 0 0xFFFFFF80) := by decide

/-- MOV.W @(2,R1),R0 (R141). -/
theorem test_movwLoadDisp :
    runs 0x8511 (fun s => (putBytes s 0x2002 [0x80, 0x01]).setReg 1 0x2000)
      (fun s => { s with pc := 0x1002 }.setReg 0 0xFFFF8001) := by decide

/-- MOV.L @(8,R1),R3 (R142). -/
theorem test_movlLoadDisp :
    runs 0x5312 (fun s => (putBytes s 0x2008 [0x12, 0x34, 0x56, 0x78]).setReg 1 0x2000)
      (fun s => { s with pc := 0x1002 }.setReg 3 0x12345678) := by decide

/-- MOV.B R2,@(R0,R1) (R143). -/
theorem test_movbStoreIdx :
    runs 0x0124 (fun s => ((s.setReg 0 0x10).setReg 1 0x2000).setReg 2 0x12345678)
      (fun s => putBytes { s with pc := 0x1002 } 0x2010 [0x78]) := by decide

/-- MOV.W R2,@(R0,R1) (R144). -/
theorem test_movwStoreIdx :
    runs 0x0125 (fun s => ((s.setReg 0 0x10).setReg 1 0x2000).setReg 2 0x12345678)
      (fun s => putBytes { s with pc := 0x1002 } 0x2010 [0x56, 0x78]) := by decide

/-- MOV.L R2,@(R0,R1) (R145). -/
theorem test_movlStoreIdx :
    runs 0x0126 (fun s => ((s.setReg 0 0xFFFFFFFC).setReg 1 0x2004).setReg 2 0x12345678)
      (fun s => putBytes { s with pc := 0x1002 } 0x2000 [0x12, 0x34, 0x56, 0x78]) := by decide

/-- MOV.B @(R0,R1),R3 (R146). -/
theorem test_movbLoadIdx :
    runs 0x031C (fun s => ((putBytes s 0x2000 [0x80]).setReg 0 0xFFFFFFFF).setReg 1 0x2001)
      (fun s => { s with pc := 0x1002 }.setReg 3 0xFFFFFF80) := by decide

/-- MOV.W @(R0,R1),R2 (R147). -/
theorem test_movwLoadIdx :
    runs 0x021D (fun s => ((putBytes s 0x3234 [0xAB, 0xCD]).setReg 0 0x1234).setReg 1 0x2000)
      (fun s => { s with pc := 0x1002 }.setReg 2 0xFFFFABCD) := by decide

/-- MOV.L @(R0,R1),R0 (R148). -/
theorem test_movlLoadIdx :
    runs 0x001E (fun s => ((putBytes s 0x2008 [0x12, 0x34, 0x56, 0x78]).setReg 0 0x8).setReg 1 0x2000)
      (fun s => { s with pc := 0x1002 }.setReg 0 0x12345678) := by decide

/-- MOV.B R0,@(255,GBR) (R149). -/
theorem test_movbStoreGbr :
    runs 0xC0FF (fun s => { s with gbr := 0x1000000 }.setReg 0 0xAA)
      (fun s => putBytes { s with pc := 0x1002, gbr := 0x1000000 } 0x10000FF [0xAA]) := by decide

/-- MOV.W R0,@(510,GBR) (R150). -/
theorem test_movwStoreGbr :
    runs 0xC1FF (fun s => { s with gbr := 0x1000000 }.setReg 0 0x12345678)
      (fun s => putBytes { s with pc := 0x1002 } 0x10001FE [0x56, 0x78]) := by decide

/-- MOV.L R0,@(1020,GBR) (R151). -/
theorem test_movlStoreGbr :
    runs 0xC2FF (fun s => { s with gbr := 0x1000000 }.setReg 0 0x12345678)
      (fun s => putBytes { s with pc := 0x1002 } 0x10003FC [0x12, 0x34, 0x56, 0x78]) := by decide

/-- MOV.B @(16,GBR),R0 (R152). -/
theorem test_movbLoadGbr :
    runs 0xC410 (fun s => putBytes { s with gbr := 0x5FFFF00 } 0x5FFFF10 [0xC3])
      (fun s => { s with pc := 0x1002 }.setReg 0 0xFFFFFFC3) := by decide

/-- MOV.W @(2,GBR),R0 (R153). -/
theorem test_movwLoadGbr :
    runs 0xC501 (fun s => putBytes { s with gbr := 0x2000 } 0x2002 [0x7F, 0xFF])
      (fun s => { s with pc := 0x1002 }.setReg 0 0x7FFF) := by decide

/-- MOV.L @(4,GBR),R0 (R154). -/
theorem test_movlLoadGbr :
    runs 0xC601 (fun s => putBytes { s with gbr := 0x2000 } 0x2004 [0x12, 0x34, 0x56, 0x78])
      (fun s => { s with pc := 0x1002 }.setReg 0 0x12345678) := by decide

/-- MOVA @(0,PC),R0 (R155). -/
theorem test_mova :
    runs 0xC700 (fun s => { s with pc := 0x1000000 })
      (fun s => { s with pc := 0x1000002 }.setReg 0 0x1000004) := by decide

/-- MOVA @(4,PC),R0 (R155). -/
theorem test_mova_masked_base :
    runs 0xC701 (fun s => { s with pc := 0x1002 }) (fun s => { s with pc := 0x1004 }.setReg 0 0x1008) := by decide

/-- MOVT R4 (R156). -/
theorem test_movt :
    runs 0x0429 (fun s => { s with sr := { s.sr with t := true } })
      (fun s => { s with pc := 0x1002 }.setReg 4 0x1) := by decide

/-- SWAP.B R1,R2 (R157). -/
theorem test_swapb :
    runs 0x6218 (fun s => s.setReg 1 0x12345678) (fun s => { s with pc := 0x1002 }.setReg 2 0x12347856) := by decide

/-- SWAP.W R1,R2 (R158). -/
theorem test_swapw :
    runs 0x6219 (fun s => s.setReg 1 0x12345678) (fun s => { s with pc := 0x1002 }.setReg 2 0x56781234) := by decide

/-- XTRCT R1,R2 (R159). -/
theorem test_xtrct :
    runs 0x221D (fun s => (s.setReg 1 0x12345678).setReg 2 0x9ABCDEF0)
      (fun s => { s with pc := 0x1002 }.setReg 2 0x56789ABC) := by decide

/-- ADD R2,R1 (R187). -/
theorem test_add :
    runs 0x312C (fun s => ({ s with sr := { s.sr with t := true } }.setReg 1 0xFFFFFFFF).setReg 2 0x2)
      (fun s => { s with pc := 0x1002 }.setReg 1 0x1) := by decide

/-- ADD #H'FF,R1 (R188). -/
theorem test_addImm :
    runs 0x71FF (fun s => s.setReg 1 0x1F) (fun s => { s with pc := 0x1002 }.setReg 1 0x1E) := by decide

/-- ADD #H'02,R1 (R188). -/
theorem test_addImm_in_slot :
    runs 0x7102 (fun s => { s with delay := some 0x3000 }.setReg 1 0x3000)
      (fun s => { s with pc := 0x3000, delay := none }.setReg 1 0x3002) := by decide

/-- ADDC R2,R1 (R189). -/
theorem test_addc :
    runs 0x312E (fun s => ({ s with sr := { s.sr with t := true } }.setReg 1 0xFFFFFFFF).setReg 2 0x0)
      (fun s => { s with pc := 0x1002, sr := { s.sr with t := true } }.setReg 1 0x0) := by decide

/-- ADDC R2,R1 (R189). -/
theorem test_addc_carry_out :
    runs 0x312E (fun s => ({ s with sr := { s.sr with t := false } }.setReg 1 0xFFFFFFFF).setReg 2 0x1)
      (fun s => { s with pc := 0x1002, sr := { s.sr with t := true } }.setReg 1 0x0) := by decide

/-- ADDV R2,R1 (R190). -/
theorem test_addv :
    runs 0x312F (fun s => ({ s with sr := { s.sr with t := false } }.setReg 1 0x1).setReg 2 0x2)
      (fun s => { s with pc := 0x1002, sr := { s.sr with t := false } }.setReg 1 0x3) := by decide

/-- ADDV R2,R1 (R190). -/
theorem test_addv_underflow :
    runs 0x312F
      (fun s => ({ s with sr := { s.sr with t := false } }.setReg 1 0xFFFFFFFF).setReg 2 0x80000000)
      (fun s => { s with pc := 0x1002, sr := { s.sr with t := true } }.setReg 1 0x7FFFFFFF) := by decide

/-- CMP/EQ #H'FF,R0 (R191). -/
theorem test_cmpEqImm :
    runs 0x88FF (fun s => { s with sr := { s.sr with t := false } }.setReg 0 0xFFFFFFFF)
      (fun s => { s with pc := 0x1002, sr := { s.sr with t := true } }) := by decide

/-- CMP/EQ #H'FF,R0 (R191). -/
theorem test_cmpEqImm_not_minus_one :
    runs 0x88FF (fun s => { s with sr := { s.sr with t := true } }.setReg 0 0xFF)
      (fun s => { s with pc := 0x1002, sr := { s.sr with t := false } }) := by decide

/-- CMP/EQ R2,R1 (R192). -/
theorem test_cmpEq :
    runs 0x3120
      (fun s => ({ s with sr := { s.sr with t := false } }.setReg 1 0x80000000).setReg 2 0x80000000)
      (fun s => { s with pc := 0x1002, sr := { s.sr with t := true } }) := by decide

/-- CMP/HS R2,R1 (R193). -/
theorem test_cmpHs :
    runs 0x3122 (fun s => ({ s with sr := { s.sr with t := false } }.setReg 1 0x80000000).setReg 2 0x1)
      (fun s => { s with pc := 0x1002, sr := { s.sr with t := true } }) := by decide

/-- CMP/HS R2,R1 (R193). -/
theorem test_cmpHs_smaller :
    runs 0x3122 (fun s => ({ s with sr := { s.sr with t := false } }.setReg 1 0x1).setReg 2 0x80000000)
      (fun s => { s with pc := 0x1002, sr := { s.sr with t := false } }) := by decide

/-- CMP/GE R2,R1 (R194). -/
theorem test_cmpGe :
    runs 0x3123 (fun s => ({ s with sr := { s.sr with t := false } }.setReg 1 0x80000000).setReg 2 0x1)
      (fun s => { s with pc := 0x1002, sr := { s.sr with t := false } }) := by decide

/-- CMP/GE R2,R1 (R194). -/
theorem test_cmpGe_greater :
    runs 0x3123 (fun s => ({ s with sr := { s.sr with t := false } }.setReg 1 0x1).setReg 2 0x80000000)
      (fun s => { s with pc := 0x1002, sr := { s.sr with t := true } }) := by decide

/-- CMP/HI R2,R1 (R195). -/
theorem test_cmpHi :
    runs 0x3126 (fun s => ({ s with sr := { s.sr with t := false } }.setReg 1 0x80000000).setReg 2 0x1)
      (fun s => { s with pc := 0x1002, sr := { s.sr with t := true } }) := by decide

/-- CMP/HI R2,R1 (R195). -/
theorem test_cmpHi_equal :
    runs 0x3126 (fun s => ({ s with sr := { s.sr with t := true } }.setReg 1 0x7).setReg 2 0x7)
      (fun s => { s with pc := 0x1002, sr := { s.sr with t := false } }) := by decide

/-- CMP/GT R2,R1 (R196). -/
theorem test_cmpGt :
    runs 0x3127 (fun s => ({ s with sr := { s.sr with t := false } }.setReg 1 0x80000000).setReg 2 0x1)
      (fun s => { s with pc := 0x1002, sr := { s.sr with t := false } }) := by decide

/-- CMP/GT R2,R1 (R196). -/
theorem test_cmpGt_equal :
    runs 0x3127 (fun s => ({ s with sr := { s.sr with t := true } }.setReg 1 0x7).setReg 2 0x7)
      (fun s => { s with pc := 0x1002, sr := { s.sr with t := false } }) := by decide

/-- CMP/PZ R1 (R197). -/
theorem test_cmpPz :
    runs 0x4111 (fun s => { s with sr := { s.sr with t := false } }.setReg 1 0x0)
      (fun s => { s with pc := 0x1002, sr := { s.sr with t := true } }) := by decide

/-- CMP/PL R1 (R198). -/
theorem test_cmpPl :
    runs 0x4115 (fun s => { s with sr := { s.sr with t := true } }.setReg 1 0x0)
      (fun s => { s with pc := 0x1002, sr := { s.sr with t := false } }) := by decide

/-- CMP/STR R2,R1 (R199). -/
theorem test_cmpStr :
    runs 0x212C
      (fun s => ({ s with sr := { s.sr with t := false } }.setReg 1 0x11223344).setReg 2 0x55663377)
      (fun s => { s with pc := 0x1002, sr := { s.sr with t := true } }) := by decide

/-- CMP/STR R2,R1 (R199). -/
theorem test_cmpStr_positions :
    runs 0x212C
      (fun s => ({ s with sr := { s.sr with t := true } }.setReg 1 0x11223344).setReg 2 0x44112233)
      (fun s => { s with pc := 0x1002, sr := { s.sr with t := false } }) := by decide

/-- DIV1 R0,R2 (R200). -/
theorem test_div1 :
    runs 0x3204
      (fun s => ({ s with sr := { s.sr with t := true, q := false, m := false } }.setReg 0 0x3).setReg 2 0x0)
      (fun s => { s with pc := 0x1002, sr := { s.sr with t := false, q := true, m := false } }.setReg 2
          0xFFFFFFFE) := by decide

/-- DIV0S R2,R1 (R201). -/
theorem test_div0s :
    runs 0x2127
      (fun s => ({ s with sr := { s.sr with t := true, q := false, m := false } }.setReg 1 0x80000000).setReg 2
          0xFFFFFFFF)
      (fun s => { s with pc := 0x1002, sr := { s.sr with t := false, q := true, m := true } }) := by decide

/-- DIV0U (R202). -/
theorem test_div0u :
    runs 0x0019 (fun s => { s with sr := { s.sr with t := true, q := true, m := true } })
      (fun s => { s with pc := 0x1002, sr := { s.sr with t := false, q := false, m := false } }) := by decide

/-- EXTS.B R2,R1 (R203). -/
theorem test_extsb :
    runs 0x612E (fun s => s.setReg 2 0x12345680) (fun s => { s with pc := 0x1002 }.setReg 1 0xFFFFFF80) := by decide

/-- EXTS.W R2,R1 (R204). -/
theorem test_extsw :
    runs 0x612F (fun s => s.setReg 2 0x12348000) (fun s => { s with pc := 0x1002 }.setReg 1 0xFFFF8000) := by decide

/-- EXTU.B R2,R1 (R205). -/
theorem test_extub :
    runs 0x612C (fun s => s.setReg 2 0xFFFFFF80) (fun s => { s with pc := 0x1002 }.setReg 1 0x80) := by decide

/-- EXTU.W R2,R1 (R206). -/
theorem test_extuw :
    runs 0x612D (fun s => s.setReg 2 0xFFFF8000) (fun s => { s with pc := 0x1002 }.setReg 1 0x8000) := by decide

/-- MAC.W @R0+,@R1+ (R207). -/
theorem test_macw_saturates :
    runs 0x410F
      (fun s => ((putBytes (putBytes { s with mach := 0x000, macl := 0x7FFFFFFF, sr := { s.sr with s := true }
          } 0x2000 [0x7F, 0xFF]) 0x3000 [0x7F, 0xFF]).setReg 0 0x3000).setReg 1 0x2000)
      (fun s => ({ s with pc := 0x1002, mach := 0x001, macl := 0x7FFFFFFF }.setReg 0 0x3002).setReg 1 0x2002)
          := by decide

/-- MAC.W @R1+,@R1+ (R207). -/
theorem test_macw_same_register :
    runs 0x411F
      (fun s => (putBytes { s with mach := 0x000, macl := 0xA, sr := { s.sr with s := false } } 0x2000 [0x00,
          0x03, 0x00, 0x05]).setReg 1 0x2000)
      (fun s => { s with pc := 0x1002, mach := 0x000, macl := 0x19 }.setReg 1 0x2004) := by decide

/-- MULS R2,R1 (R208). -/
theorem test_muls :
    runs 0x212F (fun s => ({ s with mach := 0x155, macl := 0x0 }.setReg 1 0xFFFFFFFF).setReg 2 0xFFFE)
      (fun s => { s with pc := 0x1002, macl := 0x2 }) := by decide

/-- MULU R2,R1 (R209). -/
theorem test_mulu :
    runs 0x212E (fun s => ({ s with mach := 0x155, macl := 0x0 }.setReg 1 0xFFFFFFFF).setReg 2 0xFFFE)
      (fun s => { s with pc := 0x1002, macl := 0xFFFD0002 }) := by decide

/-- NEG R2,R1 (R210). -/
theorem test_neg :
    runs 0x612B (fun s => s.setReg 2 0x5) (fun s => { s with pc := 0x1002 }.setReg 1 0xFFFFFFFB) := by decide

/-- NEGC R2,R1 (R211). -/
theorem test_negc :
    runs 0x612A (fun s => { s with sr := { s.sr with t := false } }.setReg 2 0x5)
      (fun s => { s with pc := 0x1002, sr := { s.sr with t := true } }.setReg 1 0xFFFFFFFB) := by decide

/-- NEGC R2,R1 (R211). -/
theorem test_negc_no_borrow :
    runs 0x612A (fun s => { s with sr := { s.sr with t := false } }.setReg 2 0x0)
      (fun s => { s with pc := 0x1002, sr := { s.sr with t := false } }.setReg 1 0x0) := by decide

/-- SUB R2,R1 (R212). -/
theorem test_sub :
    runs 0x3128 (fun s => ({ s with sr := { s.sr with t := true } }.setReg 1 0x5).setReg 2 0x7)
      (fun s => { s with pc := 0x1002 }.setReg 1 0xFFFFFFFE) := by decide

/-- SUBC R2,R1 (R213). -/
theorem test_subc :
    runs 0x312A (fun s => ({ s with sr := { s.sr with t := false } }.setReg 1 0x0).setReg 2 0x1)
      (fun s => { s with pc := 0x1002, sr := { s.sr with t := true } }.setReg 1 0xFFFFFFFF) := by decide

/-- SUBC R2,R1 (R213). -/
theorem test_subc_no_borrow :
    runs 0x312A (fun s => ({ s with sr := { s.sr with t := true } }.setReg 1 0x5).setReg 2 0x2)
      (fun s => { s with pc := 0x1002, sr := { s.sr with t := false } }.setReg 1 0x2) := by decide

/-- SUBV R2,R1 (R214). -/
theorem test_subv :
    runs 0x312B (fun s => ({ s with sr := { s.sr with t := false } }.setReg 1 0x5).setReg 2 0x2)
      (fun s => { s with pc := 0x1002, sr := { s.sr with t := false } }.setReg 1 0x3) := by decide

/-- SUBV R2,R1 (R214). -/
theorem test_subv_overflow :
    runs 0x312B
      (fun s => ({ s with sr := { s.sr with t := false } }.setReg 1 0x7FFFFFFF).setReg 2 0xFFFFFFFF)
      (fun s => { s with pc := 0x1002, sr := { s.sr with t := true } }.setReg 1 0x80000000) := by decide

/-- AND R2,R1 (R233). -/
theorem test_andReg :
    runs 0x2129 (fun s => (s.setReg 1 0xFF00FF00).setReg 2 0xFF00FF0)
      (fun s => { s with pc := 0x1002 }.setReg 1 0xF000F00) := by decide

/-- AND #H'FF,R0 (R234). -/
theorem test_andImm :
    runs 0xC9FF (fun s => s.setReg 0 0xFFFFFFFF) (fun s => { s with pc := 0x1002 }.setReg 0 0xFF) := by decide

/-- AND.B #H'7F,@(R0,GBR) (R235). -/
theorem test_andByte :
    runs 0xCD7F (fun s => (putBytes { s with gbr := 0x5FFFF00 } 0x5FFFE80 [0xFF]).setReg 0 0xFFFFFF80)
      (fun s => putBytes { s with pc := 0x1002 } 0x5FFFE80 [0x7F]) := by decide

/-- NOT R2,R1 (R236). -/
theorem test_notReg :
    runs 0x6127 (fun s => s.setReg 2 0xF0F0F0F) (fun s => { s with pc := 0x1002 }.setReg 1 0xF0F0F0F0) := by decide

/-- OR R2,R1 (R237). -/
theorem test_orReg :
    runs 0x212B (fun s => (s.setReg 1 0xFF00FF00).setReg 2 0xFF00FF0)
      (fun s => { s with pc := 0x1002 }.setReg 1 0xFFF0FFF0) := by decide

/-- OR #H'80,R0 (R238). -/
theorem test_orImm :
    runs 0xCB80 (fun s => s.setReg 0 0x12345600) (fun s => { s with pc := 0x1002 }.setReg 0 0x12345680) := by decide

/-- OR.B #H'80,@(R0,GBR) (R239). -/
theorem test_orByte :
    runs 0xCF80 (fun s => (putBytes { s with gbr := 0x5FFFF00 } 0x5FFFF11 [0x01]).setReg 0 0x11)
      (fun s => putBytes { s with pc := 0x1002 } 0x5FFFF11 [0x81]) := by decide

/-- TAS.B @R1 (R240). -/
theorem test_tasb :
    runs 0x411B
      (fun s => (putBytes { s with sr := { s.sr with t := true } } 0x2000 [0x80]).setReg 1 0x2000)
      (fun s => putBytes { s with pc := 0x1002, sr := { s.sr with t := false } } 0x2000 [0x80]) := by decide

/-- TAS.B @R1 (R240). -/
theorem test_tasb_free :
    runs 0x411B
      (fun s => (putBytes { s with sr := { s.sr with t := false } } 0x2001 [0x00]).setReg 1 0x2001)
      (fun s => putBytes { s with pc := 0x1002, sr := { s.sr with t := true } } 0x2001 [0x80]) := by decide

/-- TST R2,R1 (R241). -/
theorem test_tstReg :
    runs 0x2128
      (fun s => ({ s with sr := { s.sr with t := false } }.setReg 1 0xF0F0F0F0).setReg 2 0xF0F0F0F)
      (fun s => { s with pc := 0x1002, sr := { s.sr with t := true } }) := by decide

/-- TST #H'80,R0 (R242). -/
theorem test_tstImm :
    runs 0xC880 (fun s => { s with sr := { s.sr with t := true } }.setReg 0 0x80)
      (fun s => { s with pc := 0x1002, sr := { s.sr with t := false } }) := by decide

/-- TST #H'80,R0 (R242). -/
theorem test_tstImm_bit_seven :
    runs 0xC880 (fun s => { s with sr := { s.sr with t := false } }.setReg 0 0xFFFFFF7F)
      (fun s => { s with pc := 0x1002, sr := { s.sr with t := true } }) := by decide

/-- TST.B #H'01,@(R0,GBR) (R243). -/
theorem test_tstByte :
    runs 0xCC01
      (fun s => (putBytes { s with gbr := 0x2001, sr := { s.sr with t := true } } 0x2000 [0x01]).setReg 0 0xFFFFFFFF)
      (fun s => { s with pc := 0x1002, sr := { s.sr with t := false } }) := by decide

/-- XOR R2,R1 (R244). -/
theorem test_xorReg :
    runs 0x212A (fun s => (s.setReg 1 0xFF00FF00).setReg 2 0xFF00FF0)
      (fun s => { s with pc := 0x1002 }.setReg 1 0xF0F0F0F0) := by decide

/-- XOR #H'FF,R0 (R245). -/
theorem test_xorImm :
    runs 0xCAFF (fun s => s.setReg 0 0x123456AB) (fun s => { s with pc := 0x1002 }.setReg 0 0x12345654) := by decide

/-- XOR.B #H'FF,@(R0,GBR) (R246). -/
theorem test_xorByte :
    runs 0xCEFF (fun s => (putBytes { s with gbr := 0x2003 } 0x2003 [0xA5]).setReg 0 0x0)
      (fun s => putBytes { s with pc := 0x1002 } 0x2003 [0x5A]) := by decide

/-- ROTL R1 (R262). -/
theorem test_rotl :
    runs 0x4104 (fun s => { s with sr := { s.sr with t := false } }.setReg 1 0x80000001)
      (fun s => { s with pc := 0x1002, sr := { s.sr with t := true } }.setReg 1 0x3) := by decide

/-- ROTR R1 (R263). -/
theorem test_rotr :
    runs 0x4105 (fun s => { s with sr := { s.sr with t := false } }.setReg 1 0x80000001)
      (fun s => { s with pc := 0x1002, sr := { s.sr with t := true } }.setReg 1 0xC0000000) := by decide

/-- ROTCL R1 (R264). -/
theorem test_rotcl :
    runs 0x4124 (fun s => { s with sr := { s.sr with t := false } }.setReg 1 0x80000001)
      (fun s => { s with pc := 0x1002, sr := { s.sr with t := true } }.setReg 1 0x2) := by decide

/-- ROTCL R1 (R264). -/
theorem test_rotcl_t_enters :
    runs 0x4124 (fun s => { s with sr := { s.sr with t := true } }.setReg 1 0x0)
      (fun s => { s with pc := 0x1002, sr := { s.sr with t := false } }.setReg 1 0x1) := by decide

/-- ROTCR R1 (R265). -/
theorem test_rotcr :
    runs 0x4125 (fun s => { s with sr := { s.sr with t := false } }.setReg 1 0x80000001)
      (fun s => { s with pc := 0x1002, sr := { s.sr with t := true } }.setReg 1 0x40000000) := by decide

/-- ROTCR R1 (R265). -/
theorem test_rotcr_t_enters :
    runs 0x4125 (fun s => { s with sr := { s.sr with t := true } }.setReg 1 0x0)
      (fun s => { s with pc := 0x1002, sr := { s.sr with t := false } }.setReg 1 0x80000000) := by decide

/-- SHAL R1 (R266). -/
theorem test_shal :
    runs 0x4120 (fun s => { s with sr := { s.sr with t := false } }.setReg 1 0x80000001)
      (fun s => { s with pc := 0x1002, sr := { s.sr with t := true } }.setReg 1 0x2) := by decide

/-- SHAR R1 (R267). -/
theorem test_shar :
    runs 0x4121 (fun s => { s with sr := { s.sr with t := false } }.setReg 1 0x80000001)
      (fun s => { s with pc := 0x1002, sr := { s.sr with t := true } }.setReg 1 0xC0000000) := by decide

/-- SHLL R1 (R268). -/
theorem test_shll :
    runs 0x4100 (fun s => { s with sr := { s.sr with t := false } }.setReg 1 0x80000001)
      (fun s => { s with pc := 0x1002, sr := { s.sr with t := true } }.setReg 1 0x2) := by decide

/-- SHLR R1 (R269). -/
theorem test_shlr :
    runs 0x4101 (fun s => { s with sr := { s.sr with t := false } }.setReg 1 0x80000001)
      (fun s => { s with pc := 0x1002, sr := { s.sr with t := true } }.setReg 1 0x40000000) := by decide

/-- SHLL2 R1 (R270). -/
theorem test_shll2 :
    runs 0x4108 (fun s => { s with sr := { s.sr with t := true } }.setReg 1 0x80000001)
      (fun s => { s with pc := 0x1002, sr := { s.sr with t := true } }.setReg 1 0x4) := by decide

/-- SHLR2 R1 (R271). -/
theorem test_shlr2 :
    runs 0x4109 (fun s => { s with sr := { s.sr with t := true } }.setReg 1 0x80000001)
      (fun s => { s with pc := 0x1002, sr := { s.sr with t := true } }.setReg 1 0x20000000) := by decide

/-- SHLL8 R1 (R272). -/
theorem test_shll8 :
    runs 0x4118 (fun s => { s with sr := { s.sr with t := true } }.setReg 1 0x80000001)
      (fun s => { s with pc := 0x1002, sr := { s.sr with t := true } }.setReg 1 0x100) := by decide

/-- SHLR8 R1 (R273). -/
theorem test_shlr8 :
    runs 0x4119 (fun s => { s with sr := { s.sr with t := true } }.setReg 1 0x80000001)
      (fun s => { s with pc := 0x1002, sr := { s.sr with t := true } }.setReg 1 0x800000) := by decide

/-- SHLL16 R1 (R274). -/
theorem test_shll16 :
    runs 0x4128 (fun s => { s with sr := { s.sr with t := true } }.setReg 1 0x80000001)
      (fun s => { s with pc := 0x1002, sr := { s.sr with t := true } }.setReg 1 0x10000) := by decide

/-- SHLR16 R1 (R275). -/
theorem test_shlr16 :
    runs 0x4129 (fun s => { s with sr := { s.sr with t := true } }.setReg 1 0x80000001)
      (fun s => { s with pc := 0x1002, sr := { s.sr with t := true } }.setReg 1 0x8000) := by decide

/-- BF H'00000F04 (R295). -/
theorem test_bf :
    runs 0x8B80 (fun s => { s with sr := { s.sr with t := false } }) (fun s => { s with pc := 0xF04 }) := by decide

/-- BF H'0000108A (R295). -/
theorem test_bf_not_taken :
    runs 0x8B3E (fun s => { s with pc := 0x100A, sr := { s.sr with t := true } })
      (fun s => { s with pc := 0x100C }) := by decide

/-- BT H'0000100C (R296). -/
theorem test_bt :
    runs 0x8902 (fun s => { s with pc := 0x1004, sr := { s.sr with t := true } })
      (fun s => { s with pc := 0x100C }) := by decide

/-- BT H'00001004 (R296). -/
theorem test_bt_in_slot_faults :
    stops 0x8900 (fun s => { s with delay := some 0x3000, sr := { s.sr with t := false } })
      (.illegalSlot 0x8900 0x1000) := by decide

/-- BRA H'00000004 (R297). -/
theorem test_bra : runs 0xA800 id (fun s => { s with pc := 0x1002, delay := some 0x4 }) := by decide

/-- BRA H'00001004 (R297). -/
theorem test_bra_in_slot_faults :
    stops 0xA000 (fun s => { s with delay := some 0x3000 }) (.illegalSlot 0xA000 0x1000) := by decide

/-- BSR H'00001000 (R298). -/
theorem test_bsr :
    runs 0xBFFE (fun s => { s with pr := 0xF000000 })
      (fun s => { s with pc := 0x1002, delay := some 0x1000, pr := 0x1004 }) := by decide

/-- JMP @R1 (R299). -/
theorem test_jmp :
    runs 0x412B (fun s => s.setReg 1 0x3000) (fun s => { s with pc := 0x1002, delay := some 0x3000 }) := by decide

/-- JSR @R1 (R300). -/
theorem test_jsr :
    runs 0x410B (fun s => { s with pr := 0xF000000 }.setReg 1 0x3000)
      (fun s => { s with pc := 0x1002, delay := some 0x3000, pr := 0x1004 }) := by decide

/-- JSR @R15 (R300). -/
theorem test_jsr_stack_pointer :
    runs 0x4F0B (fun s => { s with pr := 0x0 }.setReg 15 0x4000)
      (fun s => { s with pc := 0x1002, delay := some 0x4000, pr := 0x1004 }) := by decide

/-- RTS (R301). -/
theorem test_rts :
    runs 0x000B (fun s => { s with pr := 0xF000000 })
      (fun s => { s with pc := 0x1002, delay := some 0xF000000 }) := by decide

/-- CLRT (R329). -/
theorem test_clrt :
    runs 0x0008 (fun s => { s with sr := { s.sr with t := true } })
      (fun s => { s with pc := 0x1002, sr := { s.sr with t := false } }) := by decide

/-- CLRMAC (R330). -/
theorem test_clrmac :
    runs 0x0028 (fun s => { s with mach := 0x3FF, macl := 0x12345678 })
      (fun s => { s with pc := 0x1002, mach := 0x000, macl := 0x0 }) := by decide

/-- LDC R1,SR (R331). -/
theorem test_ldcSr :
    runs 0x410E (fun s => { s with sr := ⟨false, false, 0b0000, false, false⟩ }.setReg 1 0xFFFFFFFF)
      (fun s => { s with pc := 0x1002, sr := ⟨true, true, 0b1111, true, true⟩ }) := by decide

/-- LDC R1,GBR (R332). -/
theorem test_ldcGbr :
    runs 0x411E (fun s => s.setReg 1 0x5FFFF00) (fun s => { s with pc := 0x1002, gbr := 0x5FFFF00 }) := by decide

/-- LDC R1,VBR (R333). -/
theorem test_ldcVbr :
    runs 0x412E (fun s => s.setReg 1 0x401) (fun s => { s with pc := 0x1002, vbr := 0x401 }) := by decide

/-- LDC.L @R15+,SR (R334). -/
theorem test_ldclSr :
    runs 0x4F07
      (fun s => (putBytes { s with sr := ⟨false, false, 0b0000, false, false⟩ } 0xFFFEFC [0xFF, 0xFF, 0xFF,
          0xFF]).setReg 15 0xFFFEFC)
      (fun s => { s with pc := 0x1002, sr := ⟨true, true, 0b1111, true, true⟩ }.setReg 15 0xFFFF00) := by decide

/-- LDC.L @R1+,GBR (R335). -/
theorem test_ldclGbr :
    runs 0x4117 (fun s => (putBytes s 0x2000 [0x12, 0x34, 0x56, 0x78]).setReg 1 0x2000)
      (fun s => { s with pc := 0x1002, gbr := 0x12345678 }.setReg 1 0x2004) := by decide

/-- LDC.L @R1+,VBR (R336). -/
theorem test_ldclVbr :
    runs 0x4127 (fun s => (putBytes s 0x2000 [0x12, 0x34, 0x56, 0x78]).setReg 1 0x2000)
      (fun s => { s with pc := 0x1002, vbr := 0x12345678 }.setReg 1 0x2004) := by decide

/-- LDS R1,MACH (R337). -/
theorem test_ldsMach :
    runs 0x410A (fun s => { s with mach := 0x000 }.setReg 1 0x12345678)
      (fun s => { s with pc := 0x1002, mach := 0x278 }) := by decide

/-- LDS R1,MACL (R338). -/
theorem test_ldsMacl :
    runs 0x411A (fun s => { s with macl := 0x0 }.setReg 1 0x12345678)
      (fun s => { s with pc := 0x1002, macl := 0x12345678 }) := by decide

/-- LDS R1,PR (R339). -/
theorem test_ldsPr :
    runs 0x412A (fun s => { s with pr := 0x0 }.setReg 1 0x12345678)
      (fun s => { s with pc := 0x1002, pr := 0x12345678 }) := by decide

/-- LDS R1,PR (R339). -/
theorem test_ldsPr_in_slot :
    runs 0x412A (fun s => { s with delay := some 0xF000000, pr := 0xF000000 }.setReg 1 0x5000)
      (fun s => { s with pc := 0xF000000, delay := none, pr := 0x5000 }) := by decide

/-- LDS.L @R15+,MACH (R340). -/
theorem test_ldslMach :
    runs 0x4F06
      (fun s => (putBytes { s with mach := 0x000 } 0xFFFEF8 [0xFF, 0xFF, 0xFE, 0x00]).setReg 15 0xFFFEF8)
      (fun s => { s with pc := 0x1002, mach := 0x200 }.setReg 15 0xFFFEFC) := by decide

/-- LDS.L @R15+,MACL (R341). -/
theorem test_ldslMacl :
    runs 0x4F16
      (fun s => (putBytes { s with macl := 0x0 } 0xFFFEFC [0x12, 0x34, 0x56, 0x78]).setReg 15 0xFFFEFC)
      (fun s => { s with pc := 0x1002, macl := 0x12345678 }.setReg 15 0xFFFF00) := by decide

/-- LDS.L @R15+,PR (R342). -/
theorem test_ldslPr :
    runs 0x4F26
      (fun s => (putBytes { s with pr := 0x1234 } 0xFFFEFC [0x0F, 0x00, 0x00, 0x00]).setReg 15 0xFFFEFC)
      (fun s => { s with pc := 0x1002, pr := 0xF000000 }.setReg 15 0xFFFF00) := by decide

/-- NOP (R343). -/
theorem test_nop :
    runs 0x0009 (fun s => { s with delay := some 0x3000 })
      (fun s => { s with pc := 0x3000, delay := none }) := by decide

/-- RTE (R344). -/
theorem test_rte :
    runs 0x002B
      (fun s => (putBytes { s with pc := 0x3010, sr := ⟨false, false, 0b0000, false, false⟩ } 0xFFFFF8 [0x00,
          0x00, 0x10, 0x06, 0x00, 0x00, 0x00, 0xF1]).setReg 15 0xFFFFF8)
      (fun s => { s with pc := 0x3012, delay := some 0x1006, sr := ⟨true, false, 0b1111, false, false⟩ }.setReg
          15 0x1000000) := by decide

/-- RTE (R344). -/
theorem test_rte_masks_sr :
    runs 0x002B
      (fun s => (putBytes { s with pc := 0x3010, sr := ⟨false, false, 0b0000, false, false⟩ } 0xFFFFF8 [0x00,
          0x00, 0x10, 0x06, 0xFF, 0xFF, 0xFF, 0xFF]).setReg 15 0xFFFFF8)
      (fun s => { s with pc := 0x3012, delay := some 0x1006, sr := ⟨true, true, 0b1111, true, true⟩ }.setReg 15
          0x1000000) := by decide

/-- SETT (R345). -/
theorem test_sett :
    runs 0x0018 (fun s => { s with sr := { s.sr with t := false } })
      (fun s => { s with pc := 0x1002, sr := { s.sr with t := true } }) := by decide

/-- SLEEP (R346). -/
theorem test_sleep : runs 0x001B id (fun s => { s with status := .asleep, pc := 0x1002 }) := by decide

/-- SLEEP (R346). -/
theorem test_sleep_in_slot :
    runs 0x001B (fun s => { s with delay := some 0x3000 })
      (fun s => { s with status := .asleep, pc := 0x3000, delay := none }) := by decide

/-- STC SR,R1 (R347). -/
theorem test_stcSr :
    runs 0x0102 (fun s => { s with sr := ⟨true, true, 0b1111, true, true⟩ })
      (fun s => { s with pc := 0x1002 }.setReg 1 0x3F3) := by decide

/-- STC GBR,R14 (R348). -/
theorem test_stcGbr :
    runs 0x0E12 (fun s => { s with gbr := 0x5FFFF00 })
      (fun s => { s with pc := 0x1002 }.setReg 14 0x5FFFF00) := by decide

/-- STC VBR,R1 (R349). -/
theorem test_stcVbr :
    runs 0x0122 (fun s => { s with vbr := 0x400 }) (fun s => { s with pc := 0x1002 }.setReg 1 0x400) := by decide

/-- STC.L SR,@-R15 (R350). -/
theorem test_stclSr :
    runs 0x4F03 (fun s => { s with sr := ⟨true, false, 0b1111, false, false⟩ }.setReg 15 0xFFFF00)
      (fun s => (putBytes { s with pc := 0x1002 } 0xFFFEFC [0x00, 0x00, 0x00, 0xF1]).setReg 15 0xFFFEFC) := by decide

/-- STC.L GBR,@-R15 (R351). -/
theorem test_stclGbr :
    runs 0x4F13 (fun s => { s with gbr := 0x5FFFF00 }.setReg 15 0xFFFF00)
      (fun s => (putBytes { s with pc := 0x1002 } 0xFFFEFC [0x05, 0xFF, 0xFF, 0x00]).setReg 15 0xFFFEFC) := by decide

/-- STC.L VBR,@-R1 (R352). -/
theorem test_stclVbr :
    runs 0x4123 (fun s => { s with vbr := 0x400 }.setReg 1 0x2004)
      (fun s => (putBytes { s with pc := 0x1002 } 0x2000 [0x00, 0x00, 0x04, 0x00]).setReg 1 0x2000) := by decide

/-- STS MACH,R2 (R353). -/
theorem test_stsMach :
    runs 0x020A (fun s => { s with mach := 0x278 }) (fun s => { s with pc := 0x1002 }.setReg 2 0xFFFFFE78) :=
          by decide

/-- STS MACH,R2 (R353). -/
theorem test_stsMach_positive :
    runs 0x020A (fun s => { s with mach := 0x1FF }) (fun s => { s with pc := 0x1002 }.setReg 2 0x1FF) := by decide

/-- STS MACL,R3 (R354). -/
theorem test_stsMacl :
    runs 0x031A (fun s => { s with macl := 0xFFFE0001 })
      (fun s => { s with pc := 0x1002 }.setReg 3 0xFFFE0001) := by decide

/-- STS PR,R3 (R355). -/
theorem test_stsPr :
    runs 0x032A (fun s => { s with pr := 0xF000000 })
      (fun s => { s with pc := 0x1002 }.setReg 3 0xF000000) := by decide

/-- STS.L MACH,@-R15 (R356). -/
theorem test_stslMach :
    runs 0x4F02 (fun s => { s with mach := 0x200 }.setReg 15 0xFFFF00)
      (fun s => (putBytes { s with pc := 0x1002 } 0xFFFEFC [0xFF, 0xFF, 0xFE, 0x00]).setReg 15 0xFFFEFC) := by decide

/-- STS.L MACL,@-R15 (R357). -/
theorem test_stslMacl :
    runs 0x4F12 (fun s => { s with macl := 0x89ABCDEF }.setReg 15 0xFFFF00)
      (fun s => (putBytes { s with pc := 0x1002 } 0xFFFEFC [0x89, 0xAB, 0xCD, 0xEF]).setReg 15 0xFFFEFC) := by decide

/-- STS.L PR,@-R15 (R358). -/
theorem test_stslPr :
    runs 0x4F22 (fun s => { s with pr := 0x1010 }.setReg 15 0xFFFF00)
      (fun s => (putBytes { s with pc := 0x1002 } 0xFFFEFC [0x00, 0x00, 0x10, 0x10]).setReg 15 0xFFFEFC) := by decide

/-- STS.L PR,@-R15 (R358). -/
theorem test_stslPr_wraps :
    runs 0x4F22 (fun s => { s with pr := 0x1010 }.setReg 15 0x0)
      (fun s => (putBytes { s with pc := 0x1002 } 0xFFFFFFFC [0x00, 0x00, 0x10, 0x10]).setReg 15 0xFFFFFFFC) :=
          by decide

/-- TRAPA #H'20 (R359). -/
theorem test_trapa :
    runs 0xC320
      (fun s => (putBytes { s with pc := 0x1004, vbr := 0x0, sr := ⟨true, false, 0b1111, false, false⟩ } 0x80
          [0x00, 0x00, 0x30, 0x00]).setReg 15 0x1000000)
      (fun s => (putBytes { s with pc := 0x3000 } 0xFFFFF8 [0x00, 0x00, 0x10, 0x06, 0x00, 0x00, 0x00,
          0xF1]).setReg 15 0xFFFFF8) := by decide

/-- TRAPA #H'20 (R359). -/
theorem test_trapa_in_slot_faults :
    stops 0xC320
      (fun s => (putBytes { s with delay := some 0x3000, vbr := 0x0, sr := ⟨false, false, 0b0000, false, false⟩
          } 0x80 [0x00, 0x00, 0x30, 0x00]).setReg 15 0xFFFF00)
      (.illegalSlot 0xC320 0x1000) := by decide

/-! ### Stops and the rest of the step -/

theorem test_undefined_codes_stop :
    stops 0x0000 id (.illegalInstruction 0x0000 0x1000) ∧ stops 0xFFFF id (.illegalInstruction 0xFFFF 0x1000) ∧
      stops 0x0119 (fun s => { s with delay := some 0x3000 }) (.illegalInstruction 0x0119 0x1000) := by decide

theorem test_fetch_at_odd_pc_stops : stops 0x0009 (fun s => { s with pc := 0x3001 }) (.addressError 0x3001 .fetch 2) := by
  decide

theorem test_unwritten_byte_stops :
    stops 0x6010 (fun s => (putBytes s 0x2000 [0x7F]).setReg 1 0x2001) (.unwrittenRead 0x2001) := by decide

theorem test_macw_second_address_odd_stops :
    stops 0x410F (fun s => ((putBytes s 0x2000 [0, 1]).setReg 1 0x2000).setReg 0 0x3001)
      (.addressError 0x3001 .read 2) := by decide

theorem test_trapa_misaligned_vector_stops :
    stops 0xC320 (fun s => { s with vbr := 0x402 }) (.addressError 0x482 .read 4) := by decide

theorem test_supplied_vectors_leave_faults_terminal :
    stops 0x0000 (fun s => { s with illegalInstructionVector := some 4 }) (.illegalInstruction 0x0000 0x1000) := by decide

theorem test_fetch_outside_text_refused : refuses State.reset (.fetchOutsideText 0x1000) := by decide

theorem test_store_to_text_refused :
    refuses (vector 0x2120 fun s => s.setReg 1 0x1001) (.storeToText 0x1001) := by decide

theorem test_unbacked_access_refused :
    refuses (vector 0x6012 fun s => { s with memMap := [⟨0, 0x2002, .data⟩] }.setReg 1 0x2000)
      (.notBacked 0x2000 .read) := by decide

theorem test_run_ends_at_endPc :
    runs 0x0009 (fun s => { s with pc := 0xF000000 }) (fun s => { s with status := .ended }) := by decide

theorem test_asleep_is_stuck :
    stops 0x0009 (fun s => { s with status := .asleep, interrupts := [⟨64, 15⟩] }) .asleepForever := by decide

theorem test_interrupt_wakes :
    runs 0x0009 (fun s => putBytes { s with status := .asleep, interrupts := [⟨64, 15⟩, ⟨11, 16⟩] } 0x2C [0, 0, 0x40, 0])
      (fun s => { (putBytes s 0xFFFEF8 [0, 0, 0x10, 0, 0, 0, 0, 0xF0]).setReg 15 0xFFFEF8 with
                  pc := 0x4000, status := .running, interrupts := [⟨64, 15⟩] }) := by decide

theorem test_interrupt_raises_the_mask :
    runs 0x0009
      (fun s => putBytes { s with sr := ⟨true, false, 3, false, false⟩, interrupts := [⟨64, 5⟩] } 0x100 [0, 0, 0x40, 0])
      (fun s => { (putBytes s 0xFFFEF8 [0, 0, 0x10, 0, 0, 0, 0, 0x31]).setReg 15 0xFFFEF8 with
                  pc := 0x4000, sr := ⟨true, false, 5, false, false⟩, interrupts := [] }) := by decide

/-! ### Witnesses: states and operands that meet the hypotheses of the obligations -/

/-- Memory with bytes at 0x2000 and at the top of the address space; R1 and GBR address the first, R15 lies above it, and
an instruction at pc addresses it relative to the PC with displacement 0. -/
def bench : State :=
  { ((putBytes (putBytes State.reset 0x2000 [0x80, 0x01, 0x7F, 0xFE, 0x12, 0x34, 0x56, 0x78]) 0xFFFFFFFC
      [0x0A, 0x0B, 0x0C, 0x0D]).setReg 1 0x2000).setReg 2 0x2004 with pc := 0x1FFC, gbr := 0x2000 }

/-- `bench` with a delayed branch pending. -/
def benchInSlot : State := { bench with delay := some 0x3000 }

/-- `bench` with its stack pointer at the bytes of 0x2000. -/
def benchPopping : State := bench.setReg 15 0x2000

/-- `bench` with its stack pointer above the bytes of 0x2000. -/
def benchPushing : State := bench.setReg 15 0x2008

/-- `bench` with some of its memory unbacked and some program text. -/
def benchMapped : State := { bench with memMap := [⟨0x1FF8, 16, .data⟩, ⟨0x2000, 1, .text⟩, ⟨0xFFFFFFFF, 1, .text⟩] }

theorem test_fetch_of_unwritten_text_stops :
    (match step { bench with pc := 0x3000, memMap := [⟨0x3000, 2, .text⟩] } with
     | .fault f => decide (f = .unwrittenRead 0x3000)
     | _ => false) = true := by decide

theorem test_witness_EncodeInvertsDecode : decode 0x6323#16 = some (.mov 3#4 2#4) := by decide

theorem test_witness_DecodeAcceptsExactlyTheTable : decode 0xC320#16 = some (.trapa 0x20#8) := by decide

theorem test_witness_StepRunsDecodedInstruction :
    ∃ (s : State) (op : BitVec 16) (i : Instr), s.Executes ∧ s.pc.toNat % 2 = 0 ∧ s.isText s.pc = true ∧
      s.isText (s.pc + 1#32) = true ∧ HoldsHalf s s.pc op ∧ decode op = some i :=
  ⟨vector 0x6323 id, 0x6323#16, .mov 3#4 2#4, by decide⟩

theorem test_witness_StepRunsDecodedInstruction_at_the_top :
    ∃ (s : State) (op : BitVec 16) (i : Instr), s.Executes ∧ s.pc.toNat % 2 = 0 ∧ s.isText s.pc = true ∧
      s.isText (s.pc + 1#32) = true ∧ HoldsHalf s s.pc op ∧ decode op = some i :=
  ⟨vector 0x6323 fun s => { s with pc := 0xFFFFFFFE, interrupts := [⟨64, 15⟩] }, 0x6323#16, .mov 3#4 2#4, by decide⟩

theorem test_witness_StepWithoutInstruction_odd : ∃ s : State, s.Executes ∧ s.pc.toNat % 2 ≠ 0 :=
  ⟨{ bench with pc := 0xFFFFFFFF }, by decide⟩

theorem test_witness_StepWithoutInstruction_outside_text :
    ∃ s : State, s.Executes ∧ s.pc.toNat % 2 = 0 ∧ (s.isText s.pc && s.isText (s.pc + 1#32)) = false :=
  ⟨{ benchMapped with pc := 0x2000 }, by decide⟩

theorem test_witness_StepWithoutInstruction_undefined_code :
    ∃ (s : State) (op : BitVec 16), s.Executes ∧ s.pc.toNat % 2 = 0 ∧ s.isText s.pc = true ∧
      s.isText (s.pc + 1#32) = true ∧ HoldsHalf s s.pc op ∧ decode op = none :=
  ⟨vector 0x0108 id, 0x0108#16, by decide⟩

theorem test_witness_StepWithoutInstruction_unwritten_text :
    ∃ s : State, s.Executes ∧ s.pc.toNat % 2 = 0 ∧ s.isText s.pc = true ∧ s.isText (s.pc + 1#32) = true ∧
      ∃ b ∈ span s.pc 2, s.byteAt b = none :=
  ⟨{ bench with pc := 0xFFFFFFFA, memMap := [⟨0xFFFFFFFA, 2, .text⟩] }, by decide, by decide, by decide, by decide,
    0xFFFFFFFB, by decide, by decide⟩

theorem test_witness_RunEndsAtEndPc :
    (∃ s : State, s.status = .running ∧ s.pc = s.endPc ∧ s.delay = none) ∧ ∃ s : State, s.status = .ended :=
  ⟨⟨{ bench with pc := 0x0F000000 }, by decide⟩, { bench with status := .ended }, rfl⟩

theorem test_witness_StepKeepsMemoryCanonical : ∃ s t : State, s.Inv ∧ step s = .next t :=
  ⟨vector 0x2122 fun s => s.setReg 1 0x2000, _, by decide, eq_next_of_completes (by decide)⟩

theorem test_witness_StepKeepsProgramText : ∃ (s t : State) (a : Word), s.isText a = true ∧ step s = .next t :=
  ⟨vector 0x2122 fun s => s.setReg 1 0x2000, _, 0x1001, by decide, eq_next_of_completes (by decide)⟩

theorem test_witness_StepKeepsParameters : ∃ s t : State, step s = .next t :=
  ⟨vector 0x2122 fun s => s.setReg 1 0x2000, _, eq_next_of_completes (by decide)⟩

theorem test_witness_StatusBitsWrittenOnlyByListed :
    ∃ (i : Instr) (s t : State), exec i s = .next t ∧ writesT i = false ∧ writesWholeSr i = false ∧
      isDivision i = false :=
  ⟨.movlStore 1 2, bench, _, eq_next_of_completes (by decide), by decide⟩

theorem test_witness_SpecialRegistersWrittenOnlyByListed :
    ∃ (i : Instr) (s t : State), exec i s = .next t ∧ writesGbr i = false ∧ writesVbr i = false ∧
      writesPr i = false ∧ writesMacl i = false ∧ writesMach i = false :=
  ⟨.trapa 0, { benchPushing with vbr := 0x2004 }, _, eq_next_of_completes (by decide), by decide⟩

theorem test_witness_AccumulatorInvisibleToOthers : usesMac (.neg 3 4) = false ∧ usesMac .rte = false := by decide

theorem test_witness_ProgramCounterAdvance_in_slot :
    ∃ (i : Instr) (s t : State) (target : Word), exec i s = .next t ∧ s.delay = some target :=
  ⟨.sleep, benchInSlot, _, 0x3000, eq_next_of_completes (by decide), rfl⟩

theorem test_witness_ProgramCounterAdvance_outside :
    ∃ (i : Instr) (s t : State), exec i s = .next t ∧ s.delay = none ∧ changesFlow i = false :=
  ⟨.add 1 2, { bench with pc := 0xFFFFFFFE }, _, eq_next_of_completes (by decide), by decide⟩

theorem test_witness_ForbiddenFormInDelaySlot :
    benchInSlot.delay = some 0x3000 ∧ (Instr.movwPc 1 0xFF).slotForbidden = true ∧
      (Instr.movwLoad 1 1).slotForbidden = false := by decide

theorem test_witness_DelayedBranchReachesItsTarget_bra_bsr :
    (∃ s s1 s2 : State, exec (.addImm 1 2) s1 = .next s2 ∧ exec (.bra 0x800) s = .next s1) ∧
      ∃ s s1 s2 : State, exec (.ldsPr 1) s1 = .next s2 ∧ exec (.bsr 0x7FF) s = .next s1 :=
  ⟨⟨bench, _, _, eq_next_of_completes (by decide), eq_next_of_completes (by decide)⟩,
   ⟨bench, _, _, eq_next_of_completes (by decide), eq_next_of_completes (by decide)⟩⟩

theorem test_witness_DelayedBranchReachesItsTarget_jmp_jsr :
    (∃ s s1 s2 : State, exec (.addImm 1 2) s1 = .next s2 ∧ exec (.jmp 1) s = .next s1) ∧
      ∃ s s1 s2 : State, exec (.ldsPr 1) s1 = .next s2 ∧ exec (.jsr 15) s = .next s1 :=
  ⟨⟨bench, _, _, eq_next_of_completes (by decide), eq_next_of_completes (by decide)⟩,
   ⟨bench, _, _, eq_next_of_completes (by decide), eq_next_of_completes (by decide)⟩⟩

theorem test_witness_DelayedBranchReachesItsTarget_rts_rte :
    (∃ s s1 s2 : State, exec (.ldsPr 1) s1 = .next s2 ∧ exec .rts s = .next s1) ∧
      ∃ (s s1 s2 : State) (v : Word), exec (.ldcSr 1) s1 = .next s2 ∧ ReadsLong s (s.reg 15#4) v ∧
        exec .rte s = .next s1 :=
  ⟨⟨bench, _, _, eq_next_of_completes (by decide), eq_next_of_completes (by decide)⟩,
   ⟨benchPopping, _, _, 0x80017FFE, eq_next_of_completes (by decide), by decide, eq_next_of_completes (by decide)⟩⟩

theorem test_witness_EffectiveAddresses : (0 ≤ 4 ∧ 4 ≤ 4) ∧ bench.pc.toNat % 2 = 0 := by decide

theorem test_witness_ReadOutcomes_misaligned :
    (0x00000001#32).toNat % 2 ≠ 0 ∧ (0xFFFFFFFE#32).toNat % 4 ≠ 0 := by decide

theorem test_witness_ReadOutcomes_unbacked :
    ∃ s : State, ¬ Backed s 0x2008 1 ∧ (0x2008#32).toNat % 2 = 0 ∧ ¬ Backed s 0x2008 2 ∧ (0xFFFFFFFC#32).toNat % 4 = 0 ∧
      ¬ Backed s 0xFFFFFFFC 4 :=
  ⟨benchMapped, by decide⟩

theorem test_witness_ReadOutcomes_unwritten :
    ∃ s : State, (Reachable s 0x1FFF 1 ∧ s.byteAt 0x1FFF = none) ∧
      (Reachable s 0x2008 2 ∧ ∃ b ∈ span 0x2008 2, s.byteAt b = none) ∧
      Reachable s 0xFFFFFFF8 4 ∧ ∃ b ∈ span 0xFFFFFFF8 4, s.byteAt b = none :=
  ⟨bench, by decide, ⟨by decide, 0x2008, by decide, by decide⟩, by decide, 0xFFFFFFF8, by decide, by decide⟩

theorem test_witness_ReadOutcomes_value :
    ∃ s : State, ReadsByte s 0xFFFFFFFF 0x0D ∧ ReadsHalf s 0xFFFFFFFE 0x0C0D ∧ ReadsLong s 0xFFFFFFFC 0x0A0B0C0D :=
  ⟨bench, by decide⟩

theorem test_witness_WriteOutcomes_unbacked_or_text :
    ∃ s : State, ¬ Backed s 0xFFFFFFFC 4 ∧ ¬ Backed s 0x2008 2 ∧ ¬ Backed s 0x1FF7 1 ∧
      (Reachable s 0x2000 4 ∧ ∃ c ∈ span 0x2000 4, s.isText c = true) ∧
      (Reachable s 0x2000 2 ∧ ∃ c ∈ span 0x2000 2, s.isText c = true) ∧
      Reachable s 0xFFFFFFFF 1 ∧ s.isText 0xFFFFFFFF = true :=
  ⟨benchMapped, by decide, by decide, by decide, ⟨by decide, 0x2000, by decide, by decide⟩,
    ⟨by decide, 0x2000, by decide, by decide⟩, by decide, by decide⟩

theorem test_witness_WriteOutcomes_stored :
    ∃ s : State, Storable s 0xFFFFFFFF 1 ∧ Storable s 0xFFFFFFFE 2 ∧ Storable s 0xFFFFFFFC 4 :=
  ⟨bench, by decide⟩

theorem test_witness_StoredLongwordSeenInParts :
    ∃ (s t : State) (n m : Reg), exec (.movlStore n m) s = .next t :=
  ⟨bench.setReg 1 0xFFFFFFFC, _, 1, 1, eq_next_of_completes (by decide)⟩

theorem test_witness_MisalignedReadsFault_words :
    ∃ (s : State) (a : Word), a.toNat % 2 ≠ 0 ∧ s.reg 1 = a ∧ eaDisp s 1 0 2#32 = a ∧ eaIndexed s 1 = a ∧
      eaGbr s 0 2#32 = a :=
  ⟨{ bench.setReg 1 0xFFFFFFFF with gbr := 0xFFFFFFFF }, 0xFFFFFFFF, by decide⟩

theorem test_witness_MisalignedReadsFault_longwords :
    ∃ (s : State) (a : Word), a.toNat % 4 ≠ 0 ∧ s.reg 1 = a ∧ eaDisp s 1 0 4#32 = a ∧ eaIndexed s 1 = a ∧
      eaGbr s 0 4#32 = a ∧ s.delay = none ∧ s.reg 15#4 = a :=
  ⟨{ (bench.setReg 1 0x2002).setReg 15 0x2002 with gbr := 0x2002 }, 0x2002, by decide⟩

theorem test_witness_MisalignedReadsFault_second_operand :
    ∃ (s : State) (n m : Reg) (a : Word) (h : Half), a.toNat % 2 ≠ 0 ∧ m ≠ n ∧ ReadsHalf s (s.reg n) h ∧ s.reg m = a :=
  ⟨bench.setReg 3 0x2003, 1, 3, 0x2003, 0x8001, by decide⟩

theorem test_witness_MisalignedReadsFault_odd_pc :
    ∃ (s : State) (a : Word), a.toNat % 2 ≠ 0 ∧ s.delay = none ∧ eaPcWord s 0xFF = a :=
  ⟨{ bench with pc := 0x1E03 }, 0x2005, by decide⟩

theorem test_witness_MisalignedReadsFault_vector :
    ∃ (s : State) (a : Word), a.toNat % 4 ≠ 0 ∧ s.delay = none ∧ Storable s (s.reg 15#4 - 4#32) 4 ∧
      Storable s (s.reg 15#4 - 8#32) 4 ∧ vectorAddress s 0xFF = a :=
  ⟨{ bench with vbr := 0x1C06 }, 0x2002, by decide⟩

theorem test_witness_MisalignedWritesFault_words :
    ∃ (s : State) (a : Word), a.toNat % 2 ≠ 0 ∧ s.reg 1 = a ∧ s.reg 2 - 2#32 = a ∧ eaDisp s 1 0 2#32 = a ∧
      eaIndexed s 1 = a ∧ eaGbr s 0 2#32 = a :=
  ⟨{ (bench.setReg 1 0xFFFFFFFF).setReg 2 1 with gbr := 0xFFFFFFFF }, 0xFFFFFFFF, by decide⟩

theorem test_witness_MisalignedWritesFault_longwords :
    ∃ (s : State) (a : Word), a.toNat % 4 ≠ 0 ∧ s.reg 1 = a ∧ s.reg 2 - 4#32 = a ∧ eaDisp s 1 0 4#32 = a ∧
      eaIndexed s 1 = a ∧ eaGbr s 0 4#32 = a ∧ s.delay = none ∧ s.reg 15#4 - 4#32 = a :=
  ⟨{ ((bench.setReg 1 0xFFFFFFFE).setReg 2 2).setReg 15 2 with gbr := 0xFFFFFFFE }, 0xFFFFFFFE, by decide⟩

theorem test_witness_LoadResults :
    ∃ (s : State) (m : Reg) (d : BitVec 4) (b : Byte) (h : Half) (v : Word),
      ReadsByte s (s.reg m) b ∧ ReadsHalf s (s.reg m) h ∧ ReadsLong s (s.reg m) v ∧
      ReadsByte s (eaDisp s m d 1#32) b ∧ ReadsHalf s (eaDisp s m d 2#32) h ∧ ReadsLong s (eaDisp s m d 4#32) v ∧
      ReadsByte s (eaIndexed s m) b ∧ ReadsHalf s (eaIndexed s m) h ∧ ReadsLong s (eaIndexed s m) v :=
  ⟨bench, 1, 0, 0x80, 0x8001, 0x80017FFE, by decide, by decide, by decide, by decide, by decide, by decide, by decide,
    by decide, by decide⟩

theorem test_witness_LoadResults_largest_displacement :
    ∃ (s : State) (v : Word), ReadsLong s (eaDisp s 3 0xF 4#32) v :=
  ⟨bench.setReg 3 0xFFFFFFC0, 0x0A0B0C0D, by decide⟩

theorem test_witness_GbrAndPcRelativeLoadResults :
    ∃ (s : State) (d : BitVec 8) (b : Byte) (h : Half) (v : Word), s.delay = none ∧
      ReadsByte s (eaGbr s d 1#32) b ∧ ReadsHalf s (eaGbr s d 2#32) h ∧ ReadsLong s (eaGbr s d 4#32) v ∧
      ReadsHalf s (eaPcWord s d) h ∧ ReadsLong s (eaPcLong s d) v :=
  ⟨bench, 0, 0x80, 0x8001, 0x80017FFE, by decide⟩

theorem test_witness_GbrAndPcRelativeLoadResults_largest_displacement :
    ∃ (s : State) (v : Word), s.delay = none ∧ ReadsLong s (eaPcLong s 0xFF) v :=
  ⟨{ bench with pc := 0x1C02 }, 0x80017FFE, by decide⟩

theorem test_witness_PostIncrementLoadResults :
    ∃ (s : State) (m n : Reg), ReadsByte s (s.reg m) 0x0D ∧ ReadsHalf s (s.reg n) 0x0C0D ∧ m ≠ n ∧
      ReadsLong s (s.reg 1) 0x80017FFE :=
  ⟨(bench.setReg 3 0xFFFFFFFF).setReg 4 0xFFFFFFFE, 3, 4, by decide⟩

theorem test_witness_StoreResults :
    ∃ s : State, Storable s (s.reg 1) 1 ∧ Storable s (s.reg 1) 2 ∧ Storable s (s.reg 1) 4 ∧
      Storable s (eaDisp s 1 0xF 1#32) 1 ∧ Storable s (eaDisp s 1 0xF 2#32) 2 ∧ Storable s (eaDisp s 1 0xF 4#32) 4 ∧
      Storable s (eaIndexed s 1) 1 ∧ Storable s (eaIndexed s 1) 2 ∧ Storable s (eaIndexed s 1) 4 ∧
      Storable s (eaGbr s 0xFF 1#32) 1 ∧ Storable s (eaGbr s 0xFF 2#32) 2 ∧ Storable s (eaGbr s 0xFF 4#32) 4 :=
  ⟨bench, by decide, by decide, by decide, by decide, by decide, by decide, by decide, by decide, by decide, by decide,
    by decide, by decide⟩

theorem test_witness_PreDecrementStoreResults :
    ∃ (s : State) (n : Reg), Storable s (s.reg n - 1#32) 1 ∧ Storable s (s.reg n - 2#32) 2 ∧
      Storable s (s.reg n - 4#32) 4 :=
  ⟨bench, 3, by decide⟩

theorem test_witness_CarryAndBorrowResults :
    ∃ (s : State) (n m : Reg) (x y t : Int), x = (s.reg n).toNat ∧ y = (s.reg m).toNat ∧ t = s.sr.t.toNat :=
  ⟨bench, 1, 2, 0x2000, 0x2004, 0, by decide⟩

theorem test_witness_OverflowResults : ∃ (s : State) (n m : Reg) (x y : Word), x = s.reg n ∧ y = s.reg m :=
  ⟨bench, 1, 2, 0x2000, 0x2004, by decide⟩

theorem test_witness_Div1StepResult :
    ∃ (s : State) (n m : Reg) (x y : Int) (c : Bool),
      x = (2 * (s.reg n).toNat % 2 ^ 32 : Nat) + s.sr.t.toNat ∧
      y = (if s.sr.q = s.sr.m then x - (s.reg m).toNat else x + (s.reg m).toNat) ∧
      c = (if s.sr.q = s.sr.m then decide (y < 0) else decide (2 ^ 32 ≤ y)) :=
  ⟨bench, 1, 2, 0x4000, 0x1FFC, false, by decide⟩

theorem test_witness_Div1DividesUnsigned_quotient_bit_one :
    ∃ (s : State) (n m : Reg) (p d : Nat), n ≠ m ∧ s.sr.m = false ∧ (s.reg m).toNat = d ∧ p < d ∧
      s.reg n = BitVec.ofInt 32 (if s.sr.q then (p : Int) - d else p) :=
  ⟨bench, 1, 2, 0x2000, 0x2004, by decide⟩

theorem test_witness_Div1DividesUnsigned_quotient_bit_zero :
    ∃ (s : State) (n m : Reg) (p d : Nat), n ≠ m ∧ s.sr.m = false ∧ s.sr.q = true ∧ (s.reg m).toNat = d ∧ p < d ∧
      s.reg n = BitVec.ofInt 32 (if s.sr.q then (p : Int) - d else p) :=
  ⟨{ (bench.setReg 1 0xFFFFFFFF).setReg 2 0xFFFFFFFF with sr := ⟨false, false, 0, true, false⟩ }.setReg 1 1, 1, 2, 0,
    0xFFFFFFFF, by decide⟩

theorem test_witness_MacWrapsAtFortyTwoBits :
    ∃ (s : State) (n m : Reg) (a b : Half), s.sr.s = false ∧ ReadsHalf s (s.reg n) a ∧
      ReadsHalf s (if m = n then s.reg n + 2#32 else s.reg m) b ∧ m ≠ n :=
  ⟨bench, 1, 2, 0x8001, 0x1234, by decide⟩

theorem test_witness_MacWrapsAtFortyTwoBits_same_register :
    ∃ (s : State) (n : Reg) (a b : Half), s.sr.s = false ∧ ReadsHalf s (s.reg n) a ∧
      ReadsHalf s (if n = n then s.reg n + 2#32 else s.reg n) b :=
  ⟨bench, 1, 0x8001, 0x7FFE, by decide⟩

theorem test_witness_MacSaturatesAtThirtyTwoBits :
    ∃ (s : State) (n m : Reg) (a b : Half) (r : Int), s.sr.s = true ∧ ReadsHalf s (s.reg n) a ∧
      ReadsHalf s (if m = n then s.reg n + 2#32 else s.reg m) b ∧ r = s.macl.toInt + a.toInt * b.toInt :=
  ⟨{ bench with macl := 0x80000000, sr := ⟨false, true, 0, false, false⟩ }, 1, 1, 0x8001, 0x7FFE, -3221127170, by decide⟩

theorem test_witness_ByteLogicResults :
    ∃ (s : State) (b : Byte), ReadsByte s (eaGbrIndexed s) b ∧ s.isText (eaGbrIndexed s) = false :=
  ⟨{ bench with gbr := 0xFFFFFFFF }, 0x0D, by decide⟩

theorem test_witness_TestAndSetResult :
    ∃ (s : State) (n : Reg) (b : Byte), ReadsByte s (s.reg n) b ∧ s.isText (s.reg n) = false :=
  ⟨bench, 1, 0x80, by decide⟩

theorem test_witness_OneBitShiftResults : ∃ (s : State) (n : Reg) (x : Word), x = s.reg n := ⟨bench, 1, 0x2000, by decide⟩

theorem test_witness_RotateResults :
    ∃ (s : State) (n : Reg) (x : Word) (c : BitVec 1), x = s.reg n ∧ c = BitVec.ofBool s.sr.t :=
  ⟨bench, 1, 0x2000, 0, by decide⟩

theorem test_witness_MultiBitShiftResults : ∃ (s : State) (n : Reg) (x : Nat), x = (s.reg n).toNat :=
  ⟨bench, 1, 0x2000, by decide⟩

theorem test_witness_ConditionalBranchResults :
    (∃ s : State, s.delay = none ∧ s.sr.t = false) ∧ (∃ s : State, s.delay = none ∧ s.sr.t = true) ∧
      ∃ s : State, s.delay ≠ none :=
  ⟨⟨bench, by decide⟩, ⟨{ bench with sr := ⟨true, false, 0, false, false⟩ }, by decide⟩, ⟨benchInSlot, by decide⟩⟩

theorem test_witness_DelayedBranchResults : ∃ s : State, s.delay = none := ⟨bench, by decide⟩

theorem test_witness_PopSpecialRegisterResults : ∃ (s : State) (m : Reg) (v : Word), ReadsLong s (s.reg m) v :=
  ⟨bench.setReg 3 0xFFFFFFFC, 3, 0x0A0B0C0D, by decide⟩

theorem test_witness_PushSpecialRegisterResults : ∃ (s : State) (n : Reg), Storable s (s.reg n - 4#32) 4 :=
  ⟨bench, 3, by decide⟩

theorem test_witness_ReturnFromExceptionResult :
    ∃ (s : State) (newPc newSr : Word), s.delay = none ∧ ReadsLong s (s.reg 15#4) newPc ∧
      ReadsLong s (s.reg 15#4 + 4#32) newSr :=
  ⟨benchPopping, 0x80017FFE, 0x12345678, by decide⟩

theorem test_witness_TrapEntryResult :
    ∃ (s : State) (i : BitVec 8) (target : Word), s.delay = none ∧ Storable s (s.reg 15#4 - 4#32) 4 ∧
      Storable s (s.reg 15#4 - 8#32) 4 ∧
      VectorReads s (vectorAddress s i) (s.reg 15#4) s.sr.toWord (s.pc + 2#32) target :=
  ⟨{ bench with vbr := 0x1C04 }, 0xFF, 0x80017FFE, by decide⟩

theorem test_witness_TrapEntryResult_vector_in_the_frame :
    (∃ (s : State) (i : BitVec 8) (target : Word), s.delay = none ∧ Storable s (s.reg 15#4 - 4#32) 4 ∧
      Storable s (s.reg 15#4 - 8#32) 4 ∧ vectorAddress s i = s.reg 15#4 - 4#32 ∧
      VectorReads s (vectorAddress s i) (s.reg 15#4) s.sr.toWord (s.pc + 2#32) target) ∧
    ∃ (s : State) (i : BitVec 8) (target : Word), s.delay = none ∧ Storable s (s.reg 15#4 - 4#32) 4 ∧
      Storable s (s.reg 15#4 - 8#32) 4 ∧ vectorAddress s i = s.reg 15#4 - 8#32 ∧
      VectorReads s (vectorAddress s i) (s.reg 15#4) s.sr.toWord (s.pc + 2#32) target :=
  ⟨⟨{ benchPushing with vbr := 0x2004 }, 0, 0x000000F0, by decide⟩,
   ⟨{ benchPushing with vbr := 0x2000 }, 0, 0x00001FFE, by decide⟩⟩

theorem test_witness_TrapThenReturnRestores :
    ∃ (s t u : State) (i : BitVec 8), exec (.trapa i) s = .next t ∧ u.reg 15#4 = t.reg 15#4 ∧
      (∀ b ∈ span (t.reg 15#4) 8, u.byteAt b = t.byteAt b ∧ u.backed b = true) ∧ u.delay = none :=
  ⟨{ bench with vbr := 0x2000 }, _, stateOf (exec (.trapa 0) { bench with vbr := 0x2000 }), 0,
    eq_next_of_completes (by decide), rfl,
    fun b hb => ⟨rfl, List.all_eq_true.1 (by decide : Backed (stateOf (exec (.trapa 0) _)) _ 8) b hb⟩, by decide⟩

theorem test_witness_SleepResult :
    ∃ s : State, s.status = .asleep ∧ (s.delay ≠ none ∨ ∀ r ∈ s.interrupts, r.level.val ≤ s.sr.i.toNat) :=
  ⟨{ bench with status := .asleep, interrupts := [⟨64, 15⟩] }, by decide⟩

theorem test_witness_InterruptAcceptance :
    ∃ (s : State) (before after : List IntRequest) (r : IntRequest) (target : Word),
      (s.status = .asleep ∨ s.status = .running ∧ s.pc ≠ s.endPc) ∧ s.delay = none ∧
      s.interrupts = before ++ r :: after ∧ (∀ q ∈ before, q.level.val ≤ s.sr.i.toNat) ∧
      s.sr.i.toNat < r.level.val ∧ Storable s (s.reg 15#4 - 4#32) 4 ∧ Storable s (s.reg 15#4 - 8#32) 4 ∧
      VectorReads s (vectorAddress s r.vector) (s.reg 15#4) s.sr.toWord s.pc target :=
  ⟨{ bench with vbr := 0x1F00, interrupts := [⟨3, 15⟩, ⟨64, 16⟩, ⟨5, 1⟩] }, [⟨3, 15⟩], [⟨5, 1⟩], ⟨64, 16⟩, 0x80017FFE,
    by decide⟩

end Sys2Proof.Tests
end

section
/-! PROOF. Family 00_scope.md. Every step is a chain of primitive updates (`step_updatesOnly`): new contents of the registers
and of the model state, or a byte stored outside program text. An invariant of the step is then a fact about one `Update`,
carried along the chain; that the parameters never change (O12) is the first such fact. The values after reset (O8) follow at
the end. -/

open Sys2Proof Sys2Proof.Machine

namespace Sys2Proof.Machine

/-! ### Primitive updates -/

theorem SameParameters.refl (s : State) : SameParameters s s := ⟨rfl, rfl, rfl, rfl, rfl⟩

theorem SameParameters.trans {s t u : State} (h : SameParameters s t) (h' : SameParameters t u) : SameParameters s u := by
  obtain ⟨hmap, hend, haddr, hill, hslot⟩ := h
  obtain ⟨hmap', hend', haddr', hill', hslot'⟩ := h'
  exact ⟨hmap'.trans hmap, hend'.trans hend, haddr'.trans haddr, hill'.trans hill, hslot'.trans hslot⟩

/-- The two primitive ways in which an operation of the machine changes the state. -/
inductive Update (s : State) : State → Prop
  /-- Registers, pc, the pending branch, the run status and the pending requests may all be new. -/
  | control {t : State} (params : SameParameters s t) (mem : t.mem = s.mem) : Update s t
  /-- A byte outside program text is stored (R53, R66). -/
  | storeByte (a : Word) (v : Byte) (data : s.isText a = false) : Update s (s.putByte a v)

/-- A chain of primitive updates. -/
abbrev Updates : State → State → Prop := Relation.ReflTransGen Update

theorem Updates.control {s t : State} (params : SameParameters s t) (mem : t.mem = s.mem) : Updates s t :=
  .single (.control params mem)

theorem Updates.storeByte {s : State} {a : Word} (v : Byte) (h : s.isText a = false) : Updates s (s.putByte a v) :=
  .single (.storeByte a v h)

theorem Updates.storeHalf {s : State} {a : Word} (v : Half) (h : s.isText a = false) (h1 : s.isText (a + 1#32) = false) :
    Updates s (s.putHalf a v) :=
  (Updates.storeByte _ h).trans (Updates.storeByte _ (by simpa using h1))

theorem Updates.storeLong {s : State} {a : Word} (v : Word) (h : (span a 4).any s.isText = false) :
    Updates s (s.putLong a v) := by
  have e : a + 2#32 + 1#32 = a + 3#32 := by bv_omega
  simp only [span_four, List.any_cons, List.any_nil, Bool.or_false, Bool.or_eq_false_iff] at h
  obtain ⟨h0, h1, h2, h3⟩ := h
  exact (Updates.storeHalf _ h0 h1).trans (Updates.storeHalf _ (by simpa using h2) (by simpa [e] using h3))

theorem Updates.setReg (s : State) (n : Reg) (v : Word) : Updates s (s.setReg n v) := .control (.refl s) rfl

theorem Updates.sr (s : State) (r : StatusReg) : Updates s { s with sr := r } := .control (.refl s) rfl

theorem Updates.pr (s : State) (v : Word) : Updates s { s with pr := v } := .control (.refl s) rfl

theorem Updates.advance (s : State) : Updates s s.advance :=
  .control ⟨by simp, by simp, by simp, by simp, by simp⟩ (by simp)

/-- The parameters of R8 survive a chain of updates. -/
theorem Updates.sameParameters {s t : State} (h : Updates s t) : SameParameters s t := by
  induction h with
  | refl => exact .refl s
  | tail _ update ih =>
    cases update with
    | control params mem => exact ih.trans params
    | storeByte a v data => exact ih.trans (.refl _)

/-! ### Outcomes reached by updates -/

/-- Whatever next state x answers is reached from s by primitive updates. -/
def UpdatesOnly (s : State) (x : Result State) : Prop := ∀ t, x = .next t → Updates s t

theorem UpdatesOnly.next {s t : State} (h : Updates s t) : UpdatesOnly s (.next t) := by
  rintro _ ⟨⟩
  exact h

theorem UpdatesOnly.fault (s : State) (r : Fault) : UpdatesOnly s (.fault r) := fun _ h => by cases h

/-- The outcome of an operation that goes on from a state already reached. -/
theorem UpdatesOnly.after {s u : State} {x : Result State} (h : Updates s u) (hx : UpdatesOnly u x) : UpdatesOnly s x :=
  fun t ht => h.trans (hx t ht)

/-- A computation that changes no state (a check, a read, a fetch), then an operation on its value. -/
theorem UpdatesOnly.read {α : Type} {s : State} {x : Result α} {f : α → Result State} (hf : ∀ a, UpdatesOnly s (f a)) :
    UpdatesOnly s (Result.andThen x f) := fun t ht => by
  obtain ⟨a, -, h⟩ := Result.andThen_eq_next.1 ht
  exact hf a t h

/-- Two operations in sequence. -/
theorem UpdatesOnly.andThen {s : State} {x : Result State} {f : State → Result State} (hx : UpdatesOnly s x)
    (hf : ∀ u, UpdatesOnly u (f u)) : UpdatesOnly s (Result.andThen x f) := fun t ht => by
  obtain ⟨u, hu, h⟩ := Result.andThen_eq_next.1 ht
  exact (hx u hu).trans (hf u t h)

/-! ### The shared operations -/

section
variable {s u : State}

theorem write8_updatesOnly (a : Word) (v : Byte) : UpdatesOnly s (write8 s a v) := fun t ht => by
  obtain ⟨⟨-, data⟩, rfl⟩ := write8_eq_next.1 ht
  exact .storeByte v (by simpa [span_one] using data)

theorem write16_updatesOnly (a : Word) (v : Half) : UpdatesOnly s (write16 s a v) := fun t ht => by
  obtain ⟨⟨-, data⟩, rfl⟩ := write16_eq_next.1 ht
  simp only [span_two, List.any_cons, List.any_nil, Bool.or_false, Bool.or_eq_false_iff] at data
  obtain ⟨data0, data1⟩ := data
  exact .storeHalf v data0 data1

theorem write32_updatesOnly (a v : Word) : UpdatesOnly s (write32 s a v) := fun t ht => by
  obtain ⟨⟨-, data⟩, rfl⟩ := write32_eq_next.1 ht
  exact .storeLong v data

theorem done_updatesOnly (h : Updates s u) : UpdatesOnly s (done u) := .next (h.trans (Updates.advance u))

theorem doneReg_updatesOnly (n : Reg) (v : Word) : UpdatesOnly s (doneReg s n v) := done_updatesOnly (.setReg s n v)

theorem doneSr_updatesOnly (r : StatusReg) : UpdatesOnly s (doneSr s r) := done_updatesOnly (.control (.refl s) rfl)

theorem doneT_updatesOnly (b : Bool) : UpdatesOnly s (doneT s b) := doneSr_updatesOnly _

theorem doneRegT_updatesOnly (n : Reg) (v : Word) (b : Bool) : UpdatesOnly s (doneRegT s n v b) :=
  .after (.setReg s n v) (doneT_updatesOnly b)

theorem doLoad8_updatesOnly (a : Word) (n : Reg) : UpdatesOnly s (doLoad8 s a n) := .read fun _ => doneReg_updatesOnly _ _

theorem doLoad16_updatesOnly (a : Word) (n : Reg) : UpdatesOnly s (doLoad16 s a n) := .read fun _ => doneReg_updatesOnly _ _

theorem doLoad32_updatesOnly (a : Word) (n : Reg) : UpdatesOnly s (doLoad32 s a n) := .read fun _ => doneReg_updatesOnly _ _

theorem doStore8_updatesOnly (a : Word) (v : Byte) : UpdatesOnly s (doStore8 s a v) :=
  (write8_updatesOnly a v).andThen fun _ => done_updatesOnly .refl

theorem doStore16_updatesOnly (a : Word) (v : Half) : UpdatesOnly s (doStore16 s a v) :=
  (write16_updatesOnly a v).andThen fun _ => done_updatesOnly .refl

theorem doStore32_updatesOnly (a v : Word) : UpdatesOnly s (doStore32 s a v) :=
  (write32_updatesOnly a v).andThen fun _ => done_updatesOnly .refl

theorem popLong_updatesOnly (m : Reg) {k : State → Word → Result State} (hk : ∀ u v, UpdatesOnly u (k u v)) :
    UpdatesOnly s (popLong s m k) :=
  .read fun v => .after (.setReg s m _) (hk _ v)

theorem pushLong_updatesOnly (n : Reg) (v : Word) : UpdatesOnly s (pushLong s n v) :=
  (write32_updatesOnly _ v).andThen fun _ => doneReg_updatesOnly _ _

theorem modifyByte_updatesOnly (a : Word) (f : Byte → Byte) : UpdatesOnly s (modifyByte s a f) :=
  .read fun _ => doStore8_updatesOnly _ _

theorem outsideSlot_updatesOnly {i : Instr} {k : Result State} (hk : UpdatesOnly s k) : UpdatesOnly s (outsideSlot i s k) :=
  fun t ht => hk t (outsideSlot_eq_next.1 ht).2

theorem branchDelayed_updatesOnly (h : Updates s u) (target : Word) : UpdatesOnly s (.next (u.branchDelayed target)) :=
  .next (h.trans (Updates.control (.refl u) rfl))

theorem branchNow_updatesOnly (h : Updates s u) (target : Word) : UpdatesOnly s (.next (u.branchNow target)) :=
  .next (h.trans (Updates.control (.refl u) rfl))

theorem enterException_updatesOnly (returnPc : Word) (vector : BitVec 8) :
    UpdatesOnly s (enterException s returnPc vector) :=
  (write32_updatesOnly _ _).andThen fun _ => (write32_updatesOnly _ _).andThen fun _ =>
    .read fun target => branchNow_updatesOnly (.setReg _ _ _) target

theorem returnFromException_updatesOnly : UpdatesOnly s (returnFromException s) :=
  .read fun newPc => .read fun _ => branchDelayed_updatesOnly ((Updates.setReg s _ _).trans (Updates.sr _ _)) newPc

theorem acceptInterrupt_updatesOnly (r : IntRequest) : UpdatesOnly s (acceptInterrupt s r) :=
  (enterException_updatesOnly _ _).andThen fun u => .next (.control (.refl u) rfl)

theorem accumulate_updates (p : Int) : Updates s (accumulate s p) := by
  unfold accumulate
  dsimp only
  split
  · split
    · exact .control (.refl s) rfl
    · split <;> exact .control (.refl s) rfl
  · exact .control (.refl s) rfl

theorem execMacw_updatesOnly (n m : Reg) : UpdatesOnly s (execMacw n m s) :=
  .read fun _ => .read fun _ => done_updatesOnly
    ((Updates.setReg s _ _).trans ((Updates.setReg _ _ _).trans (accumulate_updates _)))

theorem execBf_updatesOnly (d : BitVec 8) : UpdatesOnly s (execBf d s) := by
  refine outsideSlot_updatesOnly ?_
  split
  · exact done_updatesOnly .refl
  · exact branchNow_updatesOnly .refl _

theorem execBt_updatesOnly (d : BitVec 8) : UpdatesOnly s (execBt d s) := by
  refine outsideSlot_updatesOnly ?_
  split
  · exact branchNow_updatesOnly .refl _
  · exact done_updatesOnly .refl

end

/-! ### Instructions and the step -/

/-- Every instruction changes the state by primitive updates. The alternatives are the shapes its meaning can have. -/
theorem exec_updatesOnly (i : Instr) (s : State) : UpdatesOnly s (exec i s) := by
  unfold exec
  cases i with
  | movImm | mov | movt | swapb | swapw | xtrct | add | addImm | sub | neg | extsb | extsw | extub | extuw
  | andReg | andImm | notReg | orReg | orImm | xorReg | xorImm | shll2 | shlr2 | shll8 | shlr8 | shll16 | shlr16
  | stcSr | stcGbr | stcVbr | stsMach | stsMacl | stsPr => exact doneReg_updatesOnly _ _
  | addc | addv | subc | subv | negc | rotl | rotr | rotcl | rotcr | shal | shar | shll | shlr =>
    exact doneRegT_updatesOnly _ _ _
  | cmpEqImm | cmpEq | cmpHs | cmpGe | cmpHi | cmpGt | cmpPz | cmpPl | cmpStr | tstReg | tstImm | clrt | sett =>
    exact doneT_updatesOnly _
  | div0s | div0u | ldcSr => exact doneSr_updatesOnly _
  | div1 n m => exact .after (.setReg s n _) (doneSr_updatesOnly _)
  | macw n m => exact execMacw_updatesOnly n m
  | muls | mulu | clrmac | ldcGbr | ldcVbr | ldsMach | ldsMacl | ldsPr =>
    exact done_updatesOnly (.control (.refl s) rfl)
  | nop => exact done_updatesOnly .refl
  | sleep => exact .next ((Updates.advance s).trans (Updates.control (.refl _) rfl))
  | movbLoad | movbLoadDisp | movbLoadIdx | movbLoadGbr => exact doLoad8_updatesOnly _ _
  | movwLoad | movwLoadDisp | movwLoadIdx | movwLoadGbr => exact doLoad16_updatesOnly _ _
  | movlLoad | movlLoadDisp | movlLoadIdx | movlLoadGbr => exact doLoad32_updatesOnly _ _
  | movwPc => exact outsideSlot_updatesOnly (doLoad16_updatesOnly _ _)
  | movlPc => exact outsideSlot_updatesOnly (doLoad32_updatesOnly _ _)
  | mova => exact outsideSlot_updatesOnly (doneReg_updatesOnly _ _)
  | movbStore | movbStoreDisp | movbStoreIdx | movbStoreGbr => exact doStore8_updatesOnly _ _
  | movwStore | movwStoreDisp | movwStoreIdx | movwStoreGbr => exact doStore16_updatesOnly _ _
  | movlStore | movlStoreDisp | movlStoreIdx | movlStoreGbr => exact doStore32_updatesOnly _ _
  | movbPreDec => exact (write8_updatesOnly _ _).andThen fun _ => doneReg_updatesOnly _ _
  | movwPreDec => exact (write16_updatesOnly _ _).andThen fun _ => doneReg_updatesOnly _ _
  | movlPreDec | stclSr | stclGbr | stclVbr | stslMach | stslMacl | stslPr => exact pushLong_updatesOnly _ _
  | movbPostInc n m | movwPostInc n m => exact .read fun _ => .after (.setReg s m _) (doneReg_updatesOnly _ _)
  | movlPostInc => exact popLong_updatesOnly _ fun _ _ => doneReg_updatesOnly _ _
  | ldclSr => exact popLong_updatesOnly _ fun _ _ => doneSr_updatesOnly _
  | ldclGbr | ldclVbr | ldslMach | ldslMacl | ldslPr =>
    exact popLong_updatesOnly _ fun u _ => done_updatesOnly (.control (.refl u) rfl)
  | andByte | orByte | xorByte => exact modifyByte_updatesOnly _ _
  | tstByte => exact .read fun _ => doneT_updatesOnly _
  | tasb => exact .read fun _ => (write8_updatesOnly _ _).andThen fun _ => doneT_updatesOnly _
  | bf d => exact execBf_updatesOnly d
  | bt d => exact execBt_updatesOnly d
  | bra | jmp | rts => exact outsideSlot_updatesOnly (branchDelayed_updatesOnly .refl _)
  | bsr | jsr => exact outsideSlot_updatesOnly (branchDelayed_updatesOnly (.pr s _) _)
  | rte => exact outsideSlot_updatesOnly returnFromException_updatesOnly
  | trapa => exact outsideSlot_updatesOnly (enterException_updatesOnly _ _)

theorem stepInstruction_updatesOnly (s : State) : UpdatesOnly s (stepInstruction s) := by
  refine .read fun op => ?_
  split
  · next i _ => exact exec_updatesOnly i s
  · exact .fault s _

/-- Every step changes the state by primitive updates: the end of the run, the acceptance of an interrupt, and every
instruction (R290, R395, R428). -/
theorem step_updatesOnly (s : State) : UpdatesOnly s (step s) := by
  unfold step
  split
  · exact .fault s _
  · split
    · next r _ => exact acceptInterrupt_updatesOnly r
    · exact .fault s _
  · split
    · exact .next (.control (.refl s) rfl)
    · split
      · next r _ => exact acceptInterrupt_updatesOnly r
      · exact stepInstruction_updatesOnly s

/-! ### The state after reset -/

/-- No byte of memory holds a value after reset (R421). -/
theorem reset_byteAt (a : Word) : State.reset.byteAt a = none := rfl

/-- The one region of MEMMAP after reset holds every address. -/
theorem reset_region_contains (a : Word) :
    ({ base := 0, size := Config.spaceSize, kind := .data } : Region).contains a.toNat = true := by
  have lt : a.toNat < 4294967296 := a.isLt
  simp [Region.contains, Config.spaceSize, lt]

theorem reset_backed (a : Word) : State.reset.backed a = true := by
  simp [State.backed, State.reset, reset_region_contains]

/-- The one region of MEMMAP after reset is data, so there is no program text. -/
theorem reset_isText (a : Word) : State.reset.isText a = false := by
  simp [State.isText, State.reset]

theorem reset_reg_of_ne {r : Reg} (h : r ≠ 15#4) : State.reset.reg r = 0#32 := by
  have ne : 15 ≠ r.toNat := fun e => h (BitVec.eq_of_toNat_eq e.symm)
  simp [State.reg, State.reset, Config.unstatedReset, Vector.getElem_set_ne, ne]

end Sys2Proof.Machine

namespace Sys2Proof.Proofs

/-- Settles O12: the parameters survive every chain of updates, and a step is one. -/
theorem stepKeepsParameters : Obligations.StepKeepsParameters :=
  fun s t ht => (step_updatesOnly s t ht).sameParameters

/-- Settles O8: memory, MEMMAP and the general registers by their lemmas above; every other field is read off. -/
theorem resetStateValues : Obligations.ResetStateValues :=
  ⟨rfl, rfl, rfl, fun a => ⟨reset_byteAt a, reset_backed a, reset_isText a⟩, rfl, rfl, rfl, rfl, rfl, rfl, rfl, rfl, rfl,
    rfl, rfl, rfl, fun _ h => reset_reg_of_ne h⟩

end Sys2Proof.Proofs
end

section
/-! PROOF. Family 10_state.md. What an instruction that completes may have written (O13, O14) and where it leaves pc
(O16) is one statement, `Completes`, proved shape by shape for every meaning (`exec_completes`). That the accumulator is
invisible to the instructions that do not name it (O15) is a commutation of `exec` with `State.withMac`, proved over the
same shapes. MAC.W with S = 0 (O40) and the memory after reset (O9) follow. -/

open Sys2Proof Sys2Proof.Machine

namespace Sys2Proof.Machine

/-! ### Replacing the accumulator -/

/-- The state with other contents of MACH:MACL (R31). -/
def State.withMac (s : State) (h : BitVec 10) (l : Word) : State := { s with mach := h, macl := l }

@[simp] theorem State.withMac_mach (s : State) (h : BitVec 10) (l : Word) : (s.withMac h l).mach = h := rfl
@[simp] theorem State.withMac_macl (s : State) (h : BitVec 10) (l : Word) : (s.withMac h l).macl = l := rfl

/-- With S = 0 the product is added to the 42 bits of MACH:MACL (R207). -/
theorem accumulate_of_not_saturating {s : State} (hs : s.sr.s = false) (p : Int) :
    accumulate s p = s.withMac (((s.mach ++ s.macl) + BitVec.ofInt 42 p).extractLsb' 32 10)
      (((s.mach ++ s.macl) + BitVec.ofInt 42 p).extractLsb' 0 32) := by
  simp [accumulate, hs, State.withMac]

/-- Adding to the accumulator changes nothing but the accumulator. -/
theorem accumulate_eq_withMac (s : State) (p : Int) : ∃ h l, accumulate s p = s.withMac h l := by
  cases hs : s.sr.s with
  | false => exact ⟨_, _, accumulate_of_not_saturating hs p⟩
  | true =>
    simp only [accumulate, hs, if_true]
    split
    · exact ⟨_, _, rfl⟩
    · split <;> exact ⟨_, _, rfl⟩

/-! ### What an instruction that completes has written -/

/-- From s to t, no field of SR and no system register has changed but those that the spec's lists let i write (R25 to
R31, R34, R35). -/
structure KeepsUnlisted (i : Instr) (s t : State) : Prop where
  tBit : writesT i = false → t.sr.t = s.sr.t
  maskBits : writesWholeSr i = false → t.sr.s = s.sr.s ∧ t.sr.i = s.sr.i
  divisionBits : writesWholeSr i = false → isDivision i = false → t.sr.q = s.sr.q ∧ t.sr.m = s.sr.m
  gbr : writesGbr i = false → t.gbr = s.gbr
  vbr : writesVbr i = false → t.vbr = s.vbr
  pr : writesPr i = false → t.pr = s.pr
  macl : writesMacl i = false → t.macl = s.macl
  mach : writesMach i = false → t.mach = s.mach

/-- u is a state inside the execution of i from s: listed fields may be new, pc and the pending branch are still those
of s. -/
structure Prepared (i : Instr) (s u : State) : Prop where
  keeps : KeepsUnlisted i s u
  pc : u.pc = s.pc
  delay : u.delay = s.delay

/-- If x answers a next state, only listed fields are new there, and pc has advanced, unless i is a branch outside a delay
slot (R290 item 8). -/
def Completes (i : Instr) (s : State) (x : Result State) : Prop :=
  ∀ t, x = .next t → KeepsUnlisted i s t ∧ (Advanced s t ∨ s.delay = none ∧ changesFlow i = true)

section
variable {i : Instr} {s t u : State}

/-- Nothing that the lists speak of has changed. -/
theorem KeepsUnlisted.of_same (sr : t.sr = s.sr) (system : SameSystem s t) : KeepsUnlisted i s t := by
  obtain ⟨⟨gbr, vbr⟩, ⟨mach, macl⟩, pr⟩ := system
  constructor <;> simp [sr, gbr, vbr, mach, macl, pr]

theorem KeepsUnlisted.trans (h : KeepsUnlisted i s u) (h' : KeepsUnlisted i u t) : KeepsUnlisted i s t where
  tBit w := (h'.tBit w).trans (h.tBit w)
  maskBits w := by simp [h'.maskBits w, h.maskBits w]
  divisionBits w d := by simp [h'.divisionBits w d, h.divisionBits w d]
  gbr w := (h'.gbr w).trans (h.gbr w)
  vbr w := (h'.vbr w).trans (h.vbr w)
  pr w := (h'.pr w).trans (h.pr w)
  macl w := (h'.macl w).trans (h.macl w)
  mach w := (h'.mach w).trans (h.mach w)

theorem Prepared.of_same (sr : u.sr = s.sr) (system : SameSystem s u) (pc : u.pc = s.pc) (delay : u.delay = s.delay) :
    Prepared i s u :=
  ⟨.of_same sr system, pc, delay⟩

theorem Prepared.trans (h : Prepared i s u) (h' : Prepared i u t) : Prepared i s t where
  keeps := h.keeps.trans h'.keeps
  pc := h'.pc.trans h.pc
  delay := h'.delay.trans h.delay

/-! ### Updates before pc moves -/

theorem Prepared.refl : Prepared i s s := .of_same rfl ⟨⟨rfl, rfl⟩, ⟨rfl, rfl⟩, rfl⟩ rfl rfl

theorem Prepared.setReg (n : Reg) (v : Word) : Prepared i s (s.setReg n v) :=
  .of_same rfl ⟨⟨rfl, rfl⟩, ⟨rfl, rfl⟩, rfl⟩ rfl rfl

theorem Prepared.writeT (w : writesT i = true) (b : Bool) : Prepared i s { s with sr := { s.sr with t := b } } :=
  ⟨by constructor <;> simp [w], rfl, rfl⟩

theorem Prepared.writeDivision (w : writesT i = true) (d : isDivision i = true) (t q m : Bool) :
    Prepared i s { s with sr := { s.sr with t := t, q := q, m := m } } :=
  ⟨by constructor <;> simp [w, d], rfl, rfl⟩

theorem Prepared.writeSr (w : writesT i = true) (w' : writesWholeSr i = true) (r : StatusReg) :
    Prepared i s { s with sr := r } :=
  ⟨by constructor <;> simp [w, w'], rfl, rfl⟩

theorem Prepared.writeGbr (w : writesGbr i = true) (v : Word) : Prepared i s { s with gbr := v } :=
  ⟨by constructor <;> simp [w], rfl, rfl⟩

theorem Prepared.writeVbr (w : writesVbr i = true) (v : Word) : Prepared i s { s with vbr := v } :=
  ⟨by constructor <;> simp [w], rfl, rfl⟩

theorem Prepared.writePr (w : writesPr i = true) (v : Word) : Prepared i s { s with pr := v } :=
  ⟨by constructor <;> simp [w], rfl, rfl⟩

theorem Prepared.writeMacl (w : writesMacl i = true) (v : Word) : Prepared i s { s with macl := v } :=
  ⟨by constructor <;> simp [w], rfl, rfl⟩

theorem Prepared.writeMach (w : writesMach i = true) (v : BitVec 10) : Prepared i s { s with mach := v } :=
  ⟨by constructor <;> simp [w], rfl, rfl⟩

theorem Prepared.withMac (w : writesMacl i = true) (w' : writesMach i = true) (h : BitVec 10) (l : Word) :
    Prepared i s (s.withMac h l) :=
  (Prepared.writeMach w' h).trans (.writeMacl w l)

theorem Prepared.accumulate (w : writesMacl i = true) (w' : writesMach i = true) (p : Int) :
    Prepared i s (accumulate s p) := by
  obtain ⟨h, l, e⟩ := accumulate_eq_withMac s p
  exact e ▸ .withMac w w' h l

theorem write8_prepared {a : Word} {v : Byte} (e : write8 s a v = .next u) : Prepared i s u := by
  obtain ⟨-, rfl⟩ := write8_eq_next.1 e
  exact .of_same rfl ⟨⟨rfl, rfl⟩, ⟨rfl, rfl⟩, rfl⟩ rfl rfl

theorem write16_prepared {a : Word} {v : Half} (e : write16 s a v = .next u) : Prepared i s u := by
  obtain ⟨-, rfl⟩ := write16_eq_next.1 e
  exact .of_same rfl ⟨⟨rfl, rfl⟩, ⟨rfl, rfl⟩, rfl⟩ rfl rfl

theorem write32_prepared {a v : Word} (e : write32 s a v = .next u) : Prepared i s u := by
  obtain ⟨-, rfl⟩ := write32_eq_next.1 e
  exact .of_same rfl ⟨⟨rfl, rfl⟩, ⟨rfl, rfl⟩, rfl⟩ rfl rfl

/-! ### The shared operations complete -/

theorem Completes.after {x : Result State} (h : Prepared i s u) (hx : Completes i u x) : Completes i s x := by
  intro t ht
  obtain ⟨keeps, flow⟩ := hx t ht
  exact ⟨h.keeps.trans keeps, by simpa [Advanced, nextPc, h.pc, h.delay] using flow⟩

/-- A read or a check, then an operation on its value. -/
theorem Completes.read {α : Type} {x : Result α} {f : α → Result State} (hf : ∀ a, Completes i s (f a)) :
    Completes i s (Result.andThen x f) := fun t ht => by
  obtain ⟨a, -, h⟩ := Result.andThen_eq_next.1 ht
  exact hf a t h

/-- A store, then an operation on the state it leaves. -/
theorem Completes.store {x : Result State} {f : State → Result State} (hx : ∀ u, x = .next u → Prepared i s u)
    (hf : ∀ u, Completes i u (f u)) : Completes i s (Result.andThen x f) := fun t ht => by
  obtain ⟨u, hu, h⟩ := Result.andThen_eq_next.1 ht
  exact (Completes.after (hx u hu) (hf u)) t h

/-- A choice between two operations. -/
theorem Completes.ite {c : Prop} [Decidable c] {x y : Result State} (hx : Completes i s x) (hy : Completes i s y) :
    Completes i s (if c then x else y) := by
  split
  · exact hx
  · exact hy

/-- An operation that ends in the advance of pc has prepared a state before it. -/
theorem done_completes (h : Prepared i s u) : Completes i s (done u) := by
  refine .after h ?_
  rintro _ ⟨⟩
  obtain ⟨-, system, -, -, advanced⟩ := regFrame_advance u
  exact ⟨.of_same u.advance_sr system, .inl advanced⟩

theorem doneReg_completes (n : Reg) (v : Word) : Completes i s (doneReg s n v) := done_completes (.setReg n v)

theorem doneT_completes (w : writesT i = true) (b : Bool) : Completes i s (doneT s b) := done_completes (.writeT w b)

theorem doneRegT_completes (w : writesT i = true) (n : Reg) (v : Word) (b : Bool) : Completes i s (doneRegT s n v b) :=
  .after (.setReg n v) (doneT_completes w b)

theorem doLoad8_completes (a : Word) (n : Reg) : Completes i s (doLoad8 s a n) := .read fun _ => doneReg_completes _ _

theorem doLoad16_completes (a : Word) (n : Reg) : Completes i s (doLoad16 s a n) := .read fun _ => doneReg_completes _ _

theorem doLoad32_completes (a : Word) (n : Reg) : Completes i s (doLoad32 s a n) := .read fun _ => doneReg_completes _ _

theorem doStore8_completes (a : Word) (v : Byte) : Completes i s (doStore8 s a v) :=
  .store (fun _ => write8_prepared) fun _ => done_completes .refl

theorem doStore16_completes (a : Word) (v : Half) : Completes i s (doStore16 s a v) :=
  .store (fun _ => write16_prepared) fun _ => done_completes .refl

theorem doStore32_completes (a v : Word) : Completes i s (doStore32 s a v) :=
  .store (fun _ => write32_prepared) fun _ => done_completes .refl

theorem popLong_completes (m : Reg) {k : State → Word → Result State} (hk : ∀ u v, Completes i u (k u v)) :
    Completes i s (popLong s m k) :=
  .read fun v => .after (.setReg m _) (hk _ v)

theorem pushLong_completes (n : Reg) (v : Word) : Completes i s (pushLong s n v) :=
  .store (fun _ => write32_prepared) fun _ => doneReg_completes _ _

theorem modifyByte_completes (a : Word) (f : Byte → Byte) : Completes i s (modifyByte s a f) :=
  .read fun _ => doStore8_completes _ _

/-- One of the forms of R292 completes only with no branch pending. -/
theorem outsideSlot_completes {j : Instr} {k : Result State} (hk : s.delay = none → Completes i s k) :
    Completes i s (outsideSlot j s k) := fun t ht => by
  obtain ⟨hd, h⟩ := outsideSlot_eq_next.1 ht
  exact hk hd t h

/-- A branch outside a delay slot may leave any pc and any pending branch. -/
theorem Completes.branch (b : changesFlow i = true) (hd : s.delay = none) (h : KeepsUnlisted i s t) :
    Completes i s (.next t) := by
  rintro _ ⟨⟩
  exact ⟨h, .inr ⟨hd, b⟩⟩

theorem branchDelayed_completes (b : changesFlow i = true) (hd : s.delay = none) (h : Prepared i s u) (target : Word) :
    Completes i s (.next (u.branchDelayed target)) :=
  .branch b hd (h.keeps.trans (.of_same rfl ⟨⟨rfl, rfl⟩, ⟨rfl, rfl⟩, rfl⟩))

theorem branchNow_completes (b : changesFlow i = true) (hd : s.delay = none) (target : Word) :
    Completes i s (.next (s.branchNow target)) :=
  .branch b hd (.of_same rfl ⟨⟨rfl, rfl⟩, ⟨rfl, rfl⟩, rfl⟩)

theorem enterException_completes (b : changesFlow i = true) (hd : s.delay = none) (returnPc : Word) (vector : BitVec 8) :
    Completes i s (enterException s returnPc vector) := fun t ht => by
  obtain ⟨-, -, target, -, rfl⟩ := enterException_eq_next.1 ht
  exact ⟨.of_same (by simp) ⟨⟨by simp, by simp⟩, ⟨by simp, by simp⟩, by simp⟩, .inr ⟨hd, b⟩⟩

theorem returnFromException_completes (b : changesFlow i = true) (w : writesT i = true) (w' : writesWholeSr i = true)
    (hd : s.delay = none) : Completes i s (returnFromException s) :=
  .read fun newPc => .read fun _ =>
    branchDelayed_completes b hd (.trans (.setReg _ _) (.writeSr w w' _)) newPc

end

/-! ### Every instruction completes so -/

/-- Every instruction, by the shape of its meaning. The `rfl`s look the instruction up in the spec's lists. -/
theorem exec_completes (i : Instr) (s : State) : Completes i s (exec i s) := by
  unfold exec
  cases i with
  | movImm | mov | movt | swapb | swapw | xtrct | add | addImm | sub | neg | extsb | extsw | extub | extuw
  | andReg | andImm | notReg | orReg | orImm | xorReg | xorImm | shll2 | shlr2 | shll8 | shlr8 | shll16 | shlr16
  | stcSr | stcGbr | stcVbr | stsMach | stsMacl | stsPr => exact doneReg_completes _ _
  | addc | addv | subc | subv | negc | rotl | rotr | rotcl | rotcr | shal | shar | shll | shlr =>
    exact doneRegT_completes rfl _ _ _
  | cmpEqImm | cmpEq | cmpHs | cmpGe | cmpHi | cmpGt | cmpPz | cmpPl | cmpStr | tstReg | tstImm | clrt | sett =>
    exact doneT_completes rfl _
  | div0s | div0u => exact done_completes (.writeDivision rfl rfl _ _ _)
  | div1 => exact done_completes (.trans (.setReg _ _) (.writeDivision rfl rfl _ _ _))
  | macw =>
    exact .read fun _ => .read fun _ =>
      done_completes (.trans (.setReg _ _) (.trans (.setReg _ _) (.accumulate rfl rfl _)))
  | clrmac => exact done_completes (.withMac rfl rfl _ _)
  | muls | mulu | ldsMacl => exact done_completes (.writeMacl rfl _)
  | ldsMach => exact done_completes (.writeMach rfl _)
  | ldcSr => exact done_completes (.writeSr rfl rfl _)
  | ldcGbr => exact done_completes (.writeGbr rfl _)
  | ldcVbr => exact done_completes (.writeVbr rfl _)
  | ldsPr => exact done_completes (.writePr rfl _)
  | nop => exact done_completes .refl
  | sleep =>
    rintro _ ⟨⟩
    obtain ⟨-, system, -, -, advanced⟩ := regFrame_advance s
    exact ⟨.of_same s.advance_sr system, .inl advanced⟩
  | movbLoad | movbLoadDisp | movbLoadIdx | movbLoadGbr => exact doLoad8_completes _ _
  | movwLoad | movwLoadDisp | movwLoadIdx | movwLoadGbr => exact doLoad16_completes _ _
  | movlLoad | movlLoadDisp | movlLoadIdx | movlLoadGbr => exact doLoad32_completes _ _
  | movwPc => exact outsideSlot_completes fun _ => doLoad16_completes _ _
  | movlPc => exact outsideSlot_completes fun _ => doLoad32_completes _ _
  | mova => exact outsideSlot_completes fun _ => doneReg_completes _ _
  | movbStore | movbStoreDisp | movbStoreIdx | movbStoreGbr => exact doStore8_completes _ _
  | movwStore | movwStoreDisp | movwStoreIdx | movwStoreGbr => exact doStore16_completes _ _
  | movlStore | movlStoreDisp | movlStoreIdx | movlStoreGbr => exact doStore32_completes _ _
  | movbPreDec => exact .store (fun _ => write8_prepared) fun _ => doneReg_completes _ _
  | movwPreDec => exact .store (fun _ => write16_prepared) fun _ => doneReg_completes _ _
  | movlPreDec | stclSr | stclGbr | stclVbr | stslMach | stslMacl | stslPr => exact pushLong_completes _ _
  | movbPostInc | movwPostInc => exact .read fun _ => .after (.setReg _ _) (doneReg_completes _ _)
  | movlPostInc => exact popLong_completes _ fun _ _ => doneReg_completes _ _
  | ldclSr => exact popLong_completes _ fun _ _ => done_completes (.writeSr rfl rfl _)
  | ldclGbr => exact popLong_completes _ fun _ _ => done_completes (.writeGbr rfl _)
  | ldclVbr => exact popLong_completes _ fun _ _ => done_completes (.writeVbr rfl _)
  | ldslMach => exact popLong_completes _ fun _ _ => done_completes (.writeMach rfl _)
  | ldslMacl => exact popLong_completes _ fun _ _ => done_completes (.writeMacl rfl _)
  | ldslPr => exact popLong_completes _ fun _ _ => done_completes (.writePr rfl _)
  | andByte | orByte | xorByte => exact modifyByte_completes _ _
  | tstByte => exact .read fun _ => doneT_completes rfl _
  | tasb => exact .read fun _ => .store (fun _ => write8_prepared) fun _ => doneT_completes rfl _
  | bf => exact outsideSlot_completes fun hd => .ite (done_completes .refl) (branchNow_completes rfl hd _)
  | bt => exact outsideSlot_completes fun hd => .ite (branchNow_completes rfl hd _) (done_completes .refl)
  | bra | jmp | rts => exact outsideSlot_completes fun hd => branchDelayed_completes rfl hd .refl _
  | bsr | jsr => exact outsideSlot_completes fun hd => branchDelayed_completes rfl hd (.writePr rfl _) _
  | rte => exact outsideSlot_completes (returnFromException_completes rfl rfl rfl)
  | trapa => exact outsideSlot_completes fun hd => enterException_completes rfl hd _ _

/-- What a completed instruction has written is on its lists. -/
theorem exec_keepsUnlisted {i : Instr} {s t : State} (h : exec i s = .next t) : KeepsUnlisted i s t :=
  (exec_completes i s t h).1

/-- A completed instruction has advanced pc, or is a branch and was not in a delay slot. -/
theorem exec_advanced_or_branched {i : Instr} {s t : State} (h : exec i s = .next t) :
    Advanced s t ∨ s.delay = none ∧ changesFlow i = true :=
  (exec_completes i s t h).2

/-! ### The accumulator carried along -/

/-- The outcome x with other contents of MACH:MACL in its next state, if it has one. -/
def Result.withMac (x : Result State) (h : BitVec 10) (l : Word) : Result State :=
  Result.andThen x fun t => .next (t.withMac h l)

section
variable {s : State} {h : BitVec 10} {l : Word}

/-- A read or a check, which sees nothing of the accumulator, then operations that carry it along. -/
theorem Result.andThen_withMac {α : Type} {x : Result α} {f g : α → Result State}
    (hf : ∀ a, g a = (f a).withMac h l) : Result.andThen x g = (Result.andThen x f).withMac h l := by
  cases x with
  | next a => exact hf a
  | fault r => rfl
  | refused r => rfl

/-- Two operations in sequence, each of which carries the accumulator along. -/
theorem Result.withMac_andThen {x y : Result State} {f : State → Result State} (hx : y = x.withMac h l)
    (hf : ∀ u, f (u.withMac h l) = (f u).withMac h l) : Result.andThen y f = (Result.andThen x f).withMac h l := by
  subst hx
  cases x with
  | next u => exact hf u
  | fault r => rfl
  | refused r => rfl

/-- A choice, which sees nothing of the accumulator, between operations that carry it along. -/
theorem Result.ite_withMac {c : Prop} [Decidable c] {x x' y y' : Result State} (hx : x' = x.withMac h l)
    (hy : y' = y.withMac h l) : (if c then x' else y') = Result.withMac (if c then x else y) h l := by
  split
  · exact hx
  · exact hy

theorem write8_withMac (a : Word) (v : Byte) : write8 (s.withMac h l) a v = (write8 s a v).withMac h l :=
  Result.andThen_withMac fun _ => rfl

theorem write16_withMac (a : Word) (v : Half) : write16 (s.withMac h l) a v = (write16 s a v).withMac h l :=
  Result.andThen_withMac fun _ => rfl

theorem write32_withMac (a v : Word) : write32 (s.withMac h l) a v = (write32 s a v).withMac h l :=
  Result.andThen_withMac fun _ => rfl

theorem State.advance_withMac : (s.withMac h l).advance = s.advance.withMac h l := by
  unfold State.advance
  cases hd : s.delay <;> simp [hd, State.withMac]

theorem done_withMac (s : State) : done (s.withMac h l) = (done s).withMac h l :=
  congrArg Host.Outcome.next State.advance_withMac

theorem doneReg_withMac (s : State) (n : Reg) (v : Word) : doneReg (s.withMac h l) n v = (doneReg s n v).withMac h l :=
  done_withMac (s.setReg n v)

theorem doneSr_withMac (s : State) (r : StatusReg) : doneSr (s.withMac h l) r = (doneSr s r).withMac h l :=
  done_withMac { s with sr := r }

theorem doneT_withMac (s : State) (b : Bool) : doneT (s.withMac h l) b = (doneT s b).withMac h l := doneSr_withMac _ _

theorem doneRegT_withMac (s : State) (n : Reg) (v : Word) (b : Bool) :
    doneRegT (s.withMac h l) n v b = (doneRegT s n v b).withMac h l :=
  doneT_withMac (s.setReg n v) b

theorem doLoad8_withMac (a : Word) (n : Reg) : doLoad8 (s.withMac h l) a n = (doLoad8 s a n).withMac h l :=
  Result.andThen_withMac fun _ => doneReg_withMac _ _ _

theorem doLoad16_withMac (a : Word) (n : Reg) : doLoad16 (s.withMac h l) a n = (doLoad16 s a n).withMac h l :=
  Result.andThen_withMac fun _ => doneReg_withMac _ _ _

theorem doLoad32_withMac (a : Word) (n : Reg) : doLoad32 (s.withMac h l) a n = (doLoad32 s a n).withMac h l :=
  Result.andThen_withMac fun _ => doneReg_withMac _ _ _

theorem doStore8_withMac (a : Word) (v : Byte) : doStore8 (s.withMac h l) a v = (doStore8 s a v).withMac h l :=
  Result.withMac_andThen (write8_withMac a v) fun _ => done_withMac _

theorem doStore16_withMac (a : Word) (v : Half) : doStore16 (s.withMac h l) a v = (doStore16 s a v).withMac h l :=
  Result.withMac_andThen (write16_withMac a v) fun _ => done_withMac _

theorem doStore32_withMac (a v : Word) : doStore32 (s.withMac h l) a v = (doStore32 s a v).withMac h l :=
  Result.withMac_andThen (write32_withMac a v) fun _ => done_withMac _

theorem popLong_withMac (m : Reg) {k : State → Word → Result State}
    (hk : ∀ u v, k (u.withMac h l) v = (k u v).withMac h l) :
    popLong (s.withMac h l) m k = (popLong s m k).withMac h l :=
  Result.andThen_withMac fun v => hk (s.setReg m (s.reg m + 4#32)) v

theorem pushLong_withMac (n : Reg) (v : Word) : pushLong (s.withMac h l) n v = (pushLong s n v).withMac h l :=
  Result.withMac_andThen (write32_withMac _ v) fun _ => doneReg_withMac _ _ _

theorem modifyByte_withMac (a : Word) (f : Byte → Byte) :
    modifyByte (s.withMac h l) a f = (modifyByte s a f).withMac h l :=
  Result.andThen_withMac fun _ => doStore8_withMac _ _

theorem outsideSlot_withMac {i : Instr} {k k' : Result State} (hk : k' = k.withMac h l) :
    outsideSlot i (s.withMac h l) k' = (outsideSlot i s k).withMac h l := by
  cases hd : s.delay with
  | none =>
    rw [outsideSlot_of_none hd, @outsideSlot_of_none i (s.withMac h l) k' hd]
    exact hk
  | some target =>
    rw [outsideSlot_of_some hd, @outsideSlot_of_some i (s.withMac h l) k' target hd]
    rfl

theorem enterException_withMac (returnPc : Word) (vector : BitVec 8) :
    enterException (s.withMac h l) returnPc vector = (enterException s returnPc vector).withMac h l :=
  Result.withMac_andThen (write32_withMac _ _) fun _ =>
    Result.withMac_andThen (write32_withMac _ _) fun _ => Result.andThen_withMac fun _ => rfl

theorem returnFromException_withMac : returnFromException (s.withMac h l) = (returnFromException s).withMac h l :=
  Result.andThen_withMac fun _ => Result.andThen_withMac fun _ => rfl

end

/-- An instruction that does not name MACH or MACL carries other contents of them along, by the shape of its meaning. -/
theorem exec_withMac {i : Instr} (s : State) (h : BitVec 10) (l : Word) (other : usesMac i = false) :
    exec i (s.withMac h l) = Result.withMac (exec i s) h l := by
  unfold exec
  cases i with
  | muls | mulu | macw | clrmac | ldsMacl | ldslMacl | ldsMach | ldslMach | stsMach | stsMacl | stslMach | stslMacl =>
    cases other
  | movImm | mov | movt | swapb | swapw | xtrct | add | addImm | sub | neg | extsb | extsw | extub | extuw
  | andReg | andImm | notReg | orReg | orImm | xorReg | xorImm | shll2 | shlr2 | shll8 | shlr8 | shll16 | shlr16
  | stcSr | stcGbr | stcVbr | stsPr => exact doneReg_withMac _ _ _
  | addc | addv | subc | subv | negc | rotl | rotr | rotcl | rotcr | shal | shar | shll | shlr =>
    exact doneRegT_withMac _ _ _ _
  | cmpEqImm | cmpEq | cmpHs | cmpGe | cmpHi | cmpGt | cmpPz | cmpPl | cmpStr | tstReg | tstImm | clrt | sett =>
    exact doneT_withMac _ _
  | div0s | div0u | ldcSr => exact doneSr_withMac _ _
  | div1 n => exact doneSr_withMac (s.setReg n _) _
  | ldcGbr m => exact done_withMac { s with gbr := s.reg m }
  | ldcVbr m => exact done_withMac { s with vbr := s.reg m }
  | ldsPr m => exact done_withMac { s with pr := s.reg m }
  | nop => exact done_withMac _
  | sleep => exact congrArg (fun u => Host.Outcome.next { u with status := .asleep }) State.advance_withMac
  | movbLoad | movbLoadDisp | movbLoadIdx | movbLoadGbr => exact doLoad8_withMac _ _
  | movwLoad | movwLoadDisp | movwLoadIdx | movwLoadGbr => exact doLoad16_withMac _ _
  | movlLoad | movlLoadDisp | movlLoadIdx | movlLoadGbr => exact doLoad32_withMac _ _
  | movwPc => exact outsideSlot_withMac (doLoad16_withMac _ _)
  | movlPc => exact outsideSlot_withMac (doLoad32_withMac _ _)
  | mova => exact outsideSlot_withMac (doneReg_withMac _ _ _)
  | movbStore | movbStoreDisp | movbStoreIdx | movbStoreGbr => exact doStore8_withMac _ _
  | movwStore | movwStoreDisp | movwStoreIdx | movwStoreGbr => exact doStore16_withMac _ _
  | movlStore | movlStoreDisp | movlStoreIdx | movlStoreGbr => exact doStore32_withMac _ _
  | movbPreDec => exact Result.withMac_andThen (write8_withMac _ _) fun _ => doneReg_withMac _ _ _
  | movwPreDec => exact Result.withMac_andThen (write16_withMac _ _) fun _ => doneReg_withMac _ _ _
  | movlPreDec | stclSr | stclGbr | stclVbr | stslPr => exact pushLong_withMac _ _
  | movbPostInc n m | movwPostInc n m =>
    exact Result.andThen_withMac fun _ => doneReg_withMac (s.setReg m _) _ _
  | movlPostInc => exact popLong_withMac _ fun _ _ => doneReg_withMac _ _ _
  | ldclSr => exact popLong_withMac _ fun _ _ => doneSr_withMac _ _
  | ldclGbr => exact popLong_withMac _ fun u v => done_withMac { u with gbr := v }
  | ldclVbr => exact popLong_withMac _ fun u v => done_withMac { u with vbr := v }
  | ldslPr => exact popLong_withMac _ fun u v => done_withMac { u with pr := v }
  | andByte | orByte | xorByte => exact modifyByte_withMac _ _
  | tstByte => exact Result.andThen_withMac fun _ => doneT_withMac _ _
  | tasb =>
    exact Result.andThen_withMac fun _ => Result.withMac_andThen (write8_withMac _ _) fun _ => doneT_withMac _ _
  | bf => exact outsideSlot_withMac (Result.ite_withMac (done_withMac _) rfl)
  | bt => exact outsideSlot_withMac (Result.ite_withMac rfl (done_withMac _))
  | bra | jmp | rts | bsr | jsr => exact outsideSlot_withMac rfl
  | rte => exact outsideSlot_withMac returnFromException_withMac
  | trapa => exact outsideSlot_withMac (enterException_withMac _ _)

/-! ### MAC.W -/

/-- The increments of MAC.W @Rm+,@Rn+: Rn first, then Rm, which is the updated register when m = n (R207). -/
def State.incrementMacw (s : State) (n m : Reg) : State :=
  (s.setReg n (s.reg n + 2#32)).setReg m ((s.setReg n (s.reg n + 2#32)).reg m + 2#32)

/-- The address of the second read of MAC.W. -/
theorem reg_after_first_increment (s : State) (n m : Reg) :
    (s.setReg n (s.reg n + 2#32)).reg m = if m = n then s.reg n + 2#32 else s.reg m :=
  s.reg_setReg n m _

theorem State.incrementMacw_reg_n (s : State) (n m : Reg) :
    (s.incrementMacw n m).reg n = if m = n then s.reg n + 4#32 else s.reg n + 2#32 := by
  have twice : s.reg n + 2#32 + 2#32 = s.reg n + 4#32 := by bv_omega
  rw [State.incrementMacw, State.reg_setReg, reg_after_first_increment]
  by_cases same : m = n
  · simp [same, twice]
  · simp [same, Ne.symm same]

theorem State.incrementMacw_reg_m (s : State) {n m : Reg} (other : m ≠ n) :
    (s.incrementMacw n m).reg m = s.reg m + 2#32 := by
  rw [State.incrementMacw, State.reg_setReg_same, State.reg_setReg_other _ _ other]

theorem State.incrementMacw_sameRegs (s : State) (n m : Reg) : SameRegs [n, m] s (s.incrementMacw n m) := by
  intro r hr
  obtain ⟨hn, hm⟩ : r ≠ n ∧ r ≠ m := by simpa using hr
  rw [State.incrementMacw, State.reg_setReg_other _ _ hm, State.reg_setReg_other _ _ hn]

/-- MAC.W on two readable words completes with the product accumulated after both increments (R207). -/
theorem exec_macw_of_reads {s : State} {n m : Reg} {a b : Half} (ha : ReadsHalf s (s.reg n) a)
    (hb : ReadsHalf s (if m = n then s.reg n + 2#32 else s.reg m) b) :
    exec (.macw n m) s = done (accumulate (s.incrementMacw n m) (a.toInt * b.toInt)) := by
  have hb' : ReadsHalf (s.setReg n (s.reg n + 2#32)) ((s.setReg n (s.reg n + 2#32)).reg m) b := by
    rw [reg_after_first_increment]
    exact hb
  show execMacw n m s = _
  simp only [execMacw, read16_eq_next.2 ha, read16_eq_next.2 hb', Result.andThen_next]
  rfl

/-- The frame of MAC.W, whatever it leaves in MACH:MACL. -/
theorem macw_frame {s t : State} {n m : Reg} {h : BitVec 10} {l : Word}
    (ht : done ((s.incrementMacw n m).withMac h l) = .next t) :
    SameRegs [n, m] s t ∧ t.reg n = (if m = n then s.reg n + 4#32 else s.reg n + 2#32) ∧
      (m ≠ n → t.reg m = s.reg m + 2#32) ∧ t.sr = s.sr ∧ t.pr = s.pr ∧ SameBases s t ∧ SameMem s t ∧ SameRun s t ∧
      Advanced s t := by
  cases ht
  obtain ⟨regs, ⟨bases, -, pr⟩, mem, run, advanced⟩ := regFrame_advance ((s.incrementMacw n m).withMac h l)
  have kept (r : Reg) : ((s.incrementMacw n m).withMac h l).advance.reg r = (s.incrementMacw n m).reg r :=
    regs r (by simp)
  exact ⟨fun r hr => (kept r).trans (s.incrementMacw_sameRegs n m r hr), (kept n).trans (s.incrementMacw_reg_n n m),
    fun other => (kept m).trans (s.incrementMacw_reg_m other), State.advance_sr _, pr, bases, mem, run, advanced⟩

/-- The high 10 bits, then the low 32, of the accumulator are the accumulator. -/
theorem accumulator_of_parts (r : BitVec 42) : r.extractLsb' 32 10 ++ r.extractLsb' 0 32 = r := by
  rw [BitVec.extractLsb'_append_extractLsb'_eq_extractLsb' (by decide)]
  simp

/-- Addition to the 42-bit accumulator is signed addition modulo 2^42. -/
theorem toInt_accumulator_add (x : BitVec 42) (p : Int) : (x + BitVec.ofInt 42 p).toInt = (x.toInt + p).bmod (2 ^ 42) := by
  simp [BitVec.toInt_add]

end Sys2Proof.Machine

namespace Sys2Proof.Proofs

/-- Settles O13: `KeepsUnlisted` says it of every instruction that completes. -/
theorem statusBitsWrittenOnlyByListed : Obligations.StatusBitsWrittenOnlyByListed := fun _ _ _ h =>
  have keeps := exec_keepsUnlisted h
  ⟨keeps.tBit, keeps.maskBits, keeps.divisionBits⟩

/-- Settles O14, as O13. -/
theorem specialRegistersWrittenOnlyByListed : Obligations.SpecialRegistersWrittenOnlyByListed := fun _ _ _ h =>
  have keeps := exec_keepsUnlisted h
  ⟨keeps.gbr, keeps.vbr, keeps.pr, keeps.macl, keeps.mach⟩

/-- Settles O15: `exec` commutes with replacing the accumulator. -/
theorem accumulatorInvisibleToOthers : Obligations.AccumulatorInvisibleToOthers :=
  fun _ s h l other => exec_withMac s h l other

/-- Settles O16: with a branch pending only the advance is left, and without one only the branches do not advance. -/
theorem programCounterAdvance : Obligations.ProgramCounterAdvance := by
  intro i s t h
  refine ⟨fun target pending => ?_, fun idle sequential => ?_⟩
  · rcases exec_advanced_or_branched h with ⟨hpc, hdelay⟩ | ⟨idle, -⟩
    · exact ⟨by simpa [nextPc, pending] using hpc, hdelay⟩
    · simp [pending] at idle
  · rcases exec_advanced_or_branched h with ⟨hpc, hdelay⟩ | ⟨-, branches⟩
    · exact ⟨by simpa [nextPc, idle] using hpc, hdelay⟩
    · simp [sequential] at branches

/-- Settles O40: the sum is split over MACH and MACL, and put together again it is the sum modulo 2^42. -/
theorem macWrapsAtFortyTwoBits : Obligations.MacWrapsAtFortyTwoBits := by
  intro s n m a b wraps ha hb
  have completes := exec_macw_of_reads ha hb
  rw [accumulate_of_not_saturating (show (s.incrementMacw n m).sr.s = false from wraps)] at completes
  refine ⟨_, completes, ?_, macw_frame rfl⟩
  rw [State.advance_mach, State.advance_macl, State.withMac_mach, State.withMac_macl, accumulator_of_parts]
  exact toInt_accumulator_add _ _

/-- Settles O9: memory lists no byte after reset. -/
theorem resetMemoryCanonical : Obligations.ResetMemoryCanonical := ⟨.nil, nofun⟩

end Sys2Proof.Proofs
end

section
/-! PROOF. Family 20_memory.md. What every access answers in each case (O20, O21) stands first, then what the step does
with its fetch (O5, O6). The two invariants of memory (O10, O11) are facts about one primitive `Update`, carried along the
chain that a step is. The instructions that load, store or fault follow by the shape of their meaning: a lemma per shared
operation, cited once for each form (O22 to O27, O45). -/

open Sys2Proof Sys2Proof.Machine

namespace Sys2Proof.Machine

/-! ### Accesses that stop -/

section
variable {s : State} {a : Word} {n : Nat}

theorem checkRead_notBacked (aligned : a.toNat % n = 0) (h : ¬ Backed s a n) :
    checkRead s a n = .refused (.notBacked a .read) := by
  simp only [checkRead, checkAligned, checkBacked, if_pos aligned, if_neg h, Result.andThen_next]

theorem checkWrite_notBacked (aligned : a.toNat % n = 0) (h : ¬ Backed s a n) :
    checkWrite s a n = .refused (.notBacked a .write) := by
  simp only [checkWrite, checkAligned, checkBacked, if_pos aligned, if_neg h, Result.andThen_next,
    Result.andThen_refused]

theorem checkWrite_text (reachable : Reachable s a n) (h : ∃ c ∈ span a n, s.isText c = true) :
    checkWrite s a n = .refused (.storeToText a) := by
  obtain ⟨aligned, backed⟩ := reachable
  simp only [checkWrite, checkAligned, checkBacked, checkNotText, if_pos aligned, if_pos backed,
    if_pos (List.any_eq_true.2 h), Result.andThen_next]

theorem read8_notBacked (h : ¬ Backed s a 1) : read8 s a = .refused (.notBacked a .read) := by
  simp [read8, checkRead_notBacked (Nat.mod_one _) h]

theorem read16_notBacked (aligned : a.toNat % 2 = 0) (h : ¬ Backed s a 2) :
    read16 s a = .refused (.notBacked a .read) := by
  simp [read16, checkRead_notBacked aligned h]

theorem read32_notBacked (aligned : a.toNat % 4 = 0) (h : ¬ Backed s a 4) :
    read32 s a = .refused (.notBacked a .read) := by
  simp [read32, checkRead_notBacked aligned h]

theorem write8_notBacked (v : Byte) (h : ¬ Backed s a 1) : write8 s a v = .refused (.notBacked a .write) := by
  simp [write8, checkWrite_notBacked (Nat.mod_one _) h]

theorem write16_notBacked (v : Half) (aligned : a.toNat % 2 = 0) (h : ¬ Backed s a 2) :
    write16 s a v = .refused (.notBacked a .write) := by
  simp [write16, checkWrite_notBacked aligned h]

theorem write32_notBacked (v : Word) (aligned : a.toNat % 4 = 0) (h : ¬ Backed s a 4) :
    write32 s a v = .refused (.notBacked a .write) := by
  simp [write32, checkWrite_notBacked aligned h]

theorem write8_text (v : Byte) (reachable : Reachable s a 1) (h : s.isText a = true) :
    write8 s a v = .refused (.storeToText a) := by
  simp [write8, checkWrite_text reachable ⟨a, by simp [span_one], h⟩]

theorem write16_text (v : Half) (reachable : Reachable s a 2) (h : ∃ c ∈ span a 2, s.isText c = true) :
    write16 s a v = .refused (.storeToText a) := by
  simp [write16, checkWrite_text reachable h]

theorem write32_text (v : Word) (reachable : Reachable s a 4) (h : ∃ c ∈ span a 4, s.isText c = true) :
    write32 s a v = .refused (.storeToText a) := by
  simp [write32, checkWrite_text reachable h]

/-! ### Reads of bytes that hold no value -/

theorem checkRead_of_reachable (h : Reachable s a n) : checkRead s a n = .next () := checkRead_eq_next.2 h

/-- The bytes of a longword are those of its two words. -/
theorem span_four_eq_append (a : Word) : span a 4 = span a 2 ++ span (a + 2#32) 2 := by
  have e : a + 2#32 + 1#32 = a + 3#32 := by bv_omega
  simp [span_four, span_two, e]

/-- A word whose two bytes hold values has a value. -/
theorem loadHalf_of_written (h : ∀ b ∈ span a 2, s.byteAt b ≠ none) : ∃ v, loadHalf s a = .next v := by
  simp only [span_two, List.forall_mem_cons, Option.ne_none_iff_exists'] at h
  obtain ⟨⟨v0, h0⟩, ⟨v1, h1⟩, -⟩ := h
  exact ⟨v0 ++ v1, by simp [loadHalf, loadByte_eq_next.2 h0, loadByte_eq_next.2 h1]⟩

/-- A longword with a byte that holds no value faults at such a byte: one of its first word if there is one, otherwise
one of its second (R52 step 3). -/
theorem loadLong_unwritten (h : ∃ b ∈ span a 4, s.byteAt b = none) :
    ∃ b ∈ span a 4, s.byteAt b = none ∧ loadLong s a = .fault (.unwrittenRead b) := by
  simp only [span_four_eq_append, List.mem_append] at h ⊢
  by_cases first : ∃ b ∈ span a 2, s.byteAt b = none
  · obtain ⟨b, mem, hole, fault⟩ := loadHalf_unwritten first
    exact ⟨b, .inl mem, hole, by simp [loadLong, fault]⟩
  · push Not at first
    obtain ⟨v, value⟩ := loadHalf_of_written first
    obtain ⟨b, mem, hole⟩ := h
    obtain ⟨c, mem', hole', fault⟩ := loadHalf_unwritten ⟨b, mem.resolve_left fun m => first b m hole, hole⟩
    exact ⟨c, .inr mem', hole', by simp [loadLong, value, fault]⟩

theorem read8_unwritten (reachable : Reachable s a 1) (h : s.byteAt a = none) :
    read8 s a = .fault (.unwrittenRead a) := by
  simp [read8, checkRead_of_reachable reachable, loadByte, h]

theorem read16_unwritten (reachable : Reachable s a 2) (h : ∃ b ∈ span a 2, s.byteAt b = none) :
    ∃ b ∈ span a 2, s.byteAt b = none ∧ read16 s a = .fault (.unwrittenRead b) := by
  simpa only [read16, checkRead_of_reachable reachable, Result.andThen_next] using loadHalf_unwritten h

theorem read32_unwritten (reachable : Reachable s a 4) (h : ∃ b ∈ span a 4, s.byteAt b = none) :
    ∃ b ∈ span a 4, s.byteAt b = none ∧ read32 s a = .fault (.unwrittenRead b) := by
  simpa only [read32, checkRead_of_reachable reachable, Result.andThen_next] using loadLong_unwritten h

end

/-! ### The parts of a longword -/

section
variable {s : State} {a v : Word}

/-- A readable longword has a readable high word at its address (R50). -/
theorem readsHalf_high (h : ReadsLong s a v) : ReadsHalf s a (v.extractLsb' 16 16) := by
  obtain ⟨⟨aligned, backed⟩, holds⟩ := h
  rw [Backed, span_four_eq_append, List.all_append, Bool.and_eq_true] at backed
  exact ⟨⟨by omega, backed.1⟩, ((holdsLong_iff s a v).1 holds).1⟩

/-- A readable longword has a readable low word two bytes further on (R50). -/
theorem readsHalf_low (h : ReadsLong s a v) : ReadsHalf s (a + 2#32) (v.extractLsb' 0 16) := by
  obtain ⟨⟨aligned, backed⟩, holds⟩ := h
  rw [Backed, span_four_eq_append, List.all_append, Bool.and_eq_true] at backed
  exact ⟨⟨by bv_omega, backed.2⟩, ((holdsLong_iff s a v).1 holds).2⟩

/-- A readable word has a readable high byte at its address (R50). -/
theorem readsByte_high {w : Half} (h : ReadsHalf s a w) : ReadsByte s a (w.extractLsb' 8 8) := by
  obtain ⟨⟨-, backed⟩, holds, -⟩ := h
  simp only [Backed, span_two, List.all_cons, List.all_nil, Bool.and_eq_true] at backed
  exact ⟨⟨Nat.mod_one _, by simpa [Backed, span_one] using backed.1⟩, holds⟩

/-- A readable word has a readable low byte one byte further on (R50). -/
theorem readsByte_low {w : Half} (h : ReadsHalf s a w) : ReadsByte s (a + 1#32) (w.extractLsb' 0 8) := by
  obtain ⟨⟨-, backed⟩, -, holds⟩ := h
  simp only [Backed, span_two, List.all_cons, List.all_nil, Bool.and_eq_true] at backed
  exact ⟨⟨Nat.mod_one _, by simpa [Backed, span_one] using backed.2⟩, holds⟩

/-- A longword store that completes leaves the longword readable where it was stored. -/
theorem readsLong_of_doStore32 {t : State} (h : doStore32 s a v = .next t) : ReadsLong t a v := by
  obtain ⟨u, hu, ht⟩ := Result.andThen_eq_next.1 h
  obtain ⟨⟨⟨aligned, backed⟩, -⟩, rfl⟩ := write32_eq_next.1 hu
  cases ht
  refine ⟨⟨aligned, ?_⟩, ?_⟩
  · simpa [Backed] using backed
  · simpa [HoldsLong, HoldsByte] using s.holdsLong_putLong a v

end

/-! ### The step and its fetch -/

section
variable {s : State}

/-- A running machine that is not at its end and accepts no interrupt runs an instruction. -/
theorem step_of_executes (h : s.Executes) : step s = stepInstruction s := by
  obtain ⟨running, notAtEnd, masked⟩ := h
  have atEnd : s.atEnd = false := by
    rcases notAtEnd with pc | delay
    · simp [State.atEnd, pc]
    · simp [State.atEnd, Option.isNone_eq_false_iff.2 (Option.isSome_iff_ne_none.2 delay)]
  have acceptable : s.acceptable = none := by
    unfold State.acceptable
    cases delay : s.delay with
    | some target => rfl
    | none => simpa [IntRequest.exceeds, delay] using masked
  simp [step, running, atEnd, acceptable]

theorem fetch_odd (h : s.pc.toNat % 2 ≠ 0) : fetch s = .fault (.addressError s.pc .fetch 2) := by
  simp [fetch, checkAligned, h]

theorem fetch_outsideText (even : s.pc.toNat % 2 = 0) (h : (s.isText s.pc && s.isText (s.pc + 1#32)) = false) :
    fetch s = .refused (.fetchOutsideText s.pc) := by
  simp [fetch, checkAligned, even, span_two, h]

theorem fetch_of_text (even : s.pc.toNat % 2 = 0) (text0 : s.isText s.pc = true)
    (text1 : s.isText (s.pc + 1#32) = true) : fetch s = loadHalf s s.pc := by
  simp [fetch, checkAligned, even, span_two, text0, text1]

/-- A fetch of a code in program text answers the code. -/
theorem fetch_of_code {op : Half} (even : s.pc.toNat % 2 = 0) (text0 : s.isText s.pc = true)
    (text1 : s.isText (s.pc + 1#32) = true) (holds : HoldsHalf s s.pc op) : fetch s = .next op :=
  (fetch_of_text even text0 text1).trans (loadHalf_eq_next.2 holds)

theorem stepInstruction_of_defined {op : Half} {i : Instr} (fetched : fetch s = .next op)
    (defined : decode op = some i) : stepInstruction s = exec i s := by
  simp [stepInstruction, fetched, defined]

theorem stepInstruction_of_undefined {op : Half} (fetched : fetch s = .next op) (undefined : decode op = none) :
    stepInstruction s = .fault (.illegalInstruction op s.pc) := by
  simp [stepInstruction, fetched, undefined]

end

/-! ### What the updates of a step keep -/

/-- Whether an address is program text depends on MEMMAP alone. -/
theorem State.isText_of_memMap {s t : State} (h : t.memMap = s.memMap) (a : Word) : t.isText a = s.isText a := by
  simp only [State.isText, h]

/-- The canonical form of memory survives a chain of updates. -/
theorem Updates.inv {s t : State} (h : Updates s t) (inv : s.Inv) : t.Inv := by
  induction h with
  | refl => exact inv
  | tail _ update ih =>
    cases update with
    | control _ mem => rwa [State.Inv, mem]
    | storeByte a v _ => exact State.inv_putByte a v ih

/-- A byte of program text survives a chain of updates: MEMMAP stays, so it is program text at every update, and no
update stores there. -/
theorem Updates.byteAt_of_isText {s t : State} (h : Updates s t) {a : Word} (text : s.isText a = true) :
    t.byteAt a = s.byteAt a := by
  induction h with
  | refl => rfl
  | @tail u _ before update ih =>
    cases update with
    | control _ mem => exact (State.byteAt_of_mem mem a).trans ih
    | storeByte c v data =>
      have text' : u.isText a = true := (State.isText_of_memMap (Updates.sameParameters before).1 a).trans text
      have ne : a ≠ c := by
        rintro rfl
        simp [text'] at data
      exact (u.byteAt_putByte_other v ne).trans ih

/-! ### Misaligned accesses of the shared operations -/

section
variable {s : State} {a x : Word} {n m : Reg}

theorem doLoad16_misaligned (misaligned : a.toNat % 2 ≠ 0) (e : x = a) :
    doLoad16 s x n = .fault (.addressError a .read 2) := by
  simp [doLoad16, e, read16_misaligned misaligned]

theorem doLoad32_misaligned (misaligned : a.toNat % 4 ≠ 0) (e : x = a) :
    doLoad32 s x n = .fault (.addressError a .read 4) := by
  simp [doLoad32, e, read32_misaligned misaligned]

theorem popLong_misaligned {k : State → Word → Result State} (misaligned : a.toNat % 4 ≠ 0) (e : s.reg m = a) :
    popLong s m k = .fault (.addressError a .read 4) := by
  simp [popLong, e, read32_misaligned misaligned]

theorem returnFromException_misaligned (misaligned : a.toNat % 4 ≠ 0) (e : s.reg 15#4 = a) :
    returnFromException s = .fault (.addressError a .read 4) := by
  simp [returnFromException, Config.stackPointer, e, read32_misaligned misaligned]

theorem doStore16_misaligned {v : Half} (misaligned : a.toNat % 2 ≠ 0) (e : x = a) :
    doStore16 s x v = .fault (.addressError a .write 2) := by
  simp [doStore16, e, write16_misaligned misaligned]

theorem doStore32_misaligned {v : Word} (misaligned : a.toNat % 4 ≠ 0) (e : x = a) :
    doStore32 s x v = .fault (.addressError a .write 4) := by
  simp [doStore32, e, write32_misaligned misaligned]

theorem pushLong_misaligned {v : Word} (misaligned : a.toNat % 4 ≠ 0) (e : s.reg n - 4#32 = a) :
    pushLong s n v = .fault (.addressError a .write 4) := by
  simp [pushLong, e, write32_misaligned misaligned]

theorem enterException_frame_misaligned {returnPc : Word} {vector : BitVec 8} (misaligned : a.toNat % 4 ≠ 0)
    (e : s.reg 15#4 - 4#32 = a) : enterException s returnPc vector = .fault (.addressError a .write 4) := by
  simp [enterException, Config.stackPointer, e, write32_misaligned misaligned]

theorem execMovwPostInc_misaligned (misaligned : a.toNat % 2 ≠ 0) (e : s.reg m = a) :
    execMovwPostInc n m s = .fault (.addressError a .read 2) := by
  simp [execMovwPostInc, e, read16_misaligned misaligned]

theorem execMovwPreDec_misaligned (misaligned : a.toNat % 2 ≠ 0) (e : s.reg n - 2#32 = a) :
    execMovwPreDec n m s = .fault (.addressError a .write 2) := by
  simp [execMovwPreDec, e, write16_misaligned misaligned]

theorem execMacw_first_misaligned (misaligned : a.toNat % 2 ≠ 0) (e : s.reg n = a) :
    execMacw n m s = .fault (.addressError a .read 2) := by
  simp [execMacw, e, read16_misaligned misaligned]

/-- The second word of MAC.W, at R[m] when m is not n, is looked for once the first is read (log entry 16). -/
theorem execMacw_second_misaligned {h : Half} (misaligned : a.toNat % 2 ≠ 0) (other : m ≠ n)
    (first : ReadsHalf s (s.reg n) h) (e : s.reg m = a) : execMacw n m s = .fault (.addressError a .read 2) := by
  simp only [execMacw, read16_eq_next.2 first, Result.andThen_next, reg_after_first_increment, if_neg other, e,
    read16_misaligned misaligned, Result.andThen_fault]

/-! ### Loads that complete -/

theorem sext8_eq_ofInt (b : Byte) : sext8 b = BitVec.ofInt 32 b.toInt := rfl

theorem sext16_eq_ofInt (h : Half) : sext16 h = BitVec.ofInt 32 h.toInt := rfl

variable {i : Instr}

/-- An instruction whose meaning is the write of a register. -/
theorem WritesReg.of_doneReg {v : Word} (meaning : exec i s = doneReg s n v) : WritesReg i s n v := by
  rw [WritesReg, meaning]
  exact doneReg_eq_next

theorem WritesReg.of_doLoad8 {b : Byte} (meaning : exec i s = doLoad8 s a n) (reads : ReadsByte s a b) :
    WritesReg i s n (BitVec.ofInt 32 b.toInt) :=
  .of_doneReg (by rw [meaning, doLoad8_eq_next reads, sext8_eq_ofInt])

theorem WritesReg.of_doLoad16 {h : Half} (meaning : exec i s = doLoad16 s a n) (reads : ReadsHalf s a h) :
    WritesReg i s n (BitVec.ofInt 32 h.toInt) :=
  .of_doneReg (by rw [meaning, doLoad16_eq_next reads, sext16_eq_ofInt])

theorem WritesReg.of_doLoad32 {v : Word} (meaning : exec i s = doLoad32 s a n) (reads : ReadsLong s a v) :
    WritesReg i s n v :=
  .of_doneReg (by rw [meaning, doLoad32_eq_next reads])

end

/-! ### Test and set -/

/-- A byte with bit 7 set keeps its other bits. -/
theorem or_bit7 (b : Byte) : b ||| 0x80#8 = 1#1 ++ b.extractLsb' 0 7 := by
  revert b
  decide

theorem beq_zero_iff_toNat (b : Byte) : (b == 0#8) = decide (b.toNat = 0) := by
  simp [BitVec.toNat_eq, beq_eq_decide]

/-- A byte stored, then SR replaced: the frame is that of the store. -/
theorem doneSr_after_putByte (s : State) (a : Word) (v : Byte) (r : StatusReg) :
    ∃ t, doneSr (s.putByte a v) r = .next t ∧ HoldsByte t a v ∧ t.sr = r ∧ StoreFrame a 1 [] s t := by
  obtain ⟨t, ht, sr, regs, system, mem, run, advanced⟩ := @doneSr_eq_next (s.putByte a v) r
  refine ⟨t, ht, (mem a).trans (s.byteAt_putByte_same a v), sr, fun b hb => ?_, fun r hr => ?_, system, run,
    advanced⟩
  · exact (mem b).trans (s.sameMemOutside_putByte a v b hb)
  · exact (regs r hr).trans (s.putByte_reg a v r)

/-- TAS.B on a readable byte that may be stored to (R240). -/
theorem execTasb_eq {s : State} {n : Reg} {b : Byte} (reads : ReadsByte s (s.reg n) b)
    (data : s.isText (s.reg n) = false) :
    execTasb n s = doneT (s.putByte (s.reg n) (b ||| 0x80#8)) (b == 0#8) := by
  have storable : Storable s (s.reg n) 1 := ⟨reads.1, by simpa [span_one] using data⟩
  simp [execTasb, read8_eq_next.2 reads, write8_eq_next.2 ⟨storable, rfl⟩]

end Sys2Proof.Machine

namespace Sys2Proof.Proofs

/-- Settles O10: the canonical form survives every chain of updates, and a step is one. -/
theorem stepKeepsMemoryCanonical : Obligations.StepKeepsMemoryCanonical :=
  fun s t inv ht => (step_updatesOnly s t ht).inv inv

/-- Settles O11, as O10. -/
theorem stepKeepsProgramText : Obligations.StepKeepsProgramText :=
  fun s t _ text ht => (step_updatesOnly s t ht).byteAt_of_isText text

/-- Settles O6: the step is its fetch, and the fetch or the decoder stops. -/
theorem stepWithoutInstruction : Obligations.StepWithoutInstruction := by
  intro s executes
  rw [step_of_executes executes]
  refine ⟨fun odd => ?_, fun even outside => ?_, fun even text0 text1 unwritten => ?_,
    fun op even text0 text1 holds undefined => ?_⟩
  · simp [stepInstruction, fetch_odd odd]
  · simp [stepInstruction, fetch_outsideText even outside]
  · obtain ⟨b, mem, hole, fault⟩ := loadHalf_unwritten unwritten
    exact ⟨b, mem, hole, by simp [stepInstruction, fetch_of_text even text0 text1, fault]⟩
  · exact stepInstruction_of_undefined (fetch_of_code even text0 text1 holds) undefined

/-- Settles O20: the cases of an access in the order of its checks. -/
theorem readOutcomes : Obligations.ReadOutcomes := fun _ _ =>
  ⟨read16_misaligned, read32_misaligned, read8_notBacked, read16_notBacked, read32_notBacked, read8_unwritten,
    read16_unwritten, read32_unwritten, fun _ => read8_eq_next.2, fun _ => read16_eq_next.2,
    fun _ => read32_eq_next.2⟩

/-- Settles O21: the cases of an access in the order of its checks; a store changes the memory field alone. -/
theorem writeOutcomes : Obligations.WriteOutcomes := fun s a b h v =>
  ⟨write16_misaligned, write32_misaligned, write32_notBacked v, write32_text v, write16_notBacked h, write16_text h,
    write8_notBacked b, write8_text b,
    fun storable => ⟨(s.putByte a b).mem, write8_eq_next.2 ⟨storable, rfl⟩, s.byteAt_putByte_same a b,
      s.sameMemOutside_putByte a b⟩,
    fun storable => ⟨(s.putHalf a h).mem, write16_eq_next.2 ⟨storable, rfl⟩, s.holdsHalf_putHalf a h,
      s.sameMemOutside_putHalf a h⟩,
    fun storable => ⟨(s.putLong a v).mem, write32_eq_next.2 ⟨storable, rfl⟩, s.holdsLong_putLong a v,
      s.sameMemOutside_putLong a v⟩⟩

/-- Settles O22: the stored longword is readable, and so are its words, and so are their bytes. -/
theorem storedLongwordSeenInParts : Obligations.StoredLongwordSeenInParts := by
  intro s t n m stored
  have long : ReadsLong t (s.reg n) (s.reg m) := readsLong_of_doStore32 stored
  have high := readsHalf_high long
  have low := readsHalf_low long
  have byte0 := readsByte_high high
  have byte1 := readsByte_low high
  have byte2 := readsByte_high low
  have byte3 := readsByte_low low
  have e : s.reg n + 2#32 + 1#32 = s.reg n + 3#32 := by bv_omega
  rw [highByte_of_highHalf] at byte0
  rw [lowByte_of_highHalf] at byte1
  rw [e] at byte3
  refine ⟨read32_eq_next.2 long, read16_eq_next.2 high, read16_eq_next.2 low, read8_eq_next.2 byte0,
    read8_eq_next.2 byte1, read8_eq_next.2 ?_, read8_eq_next.2 ?_⟩
  · simpa using byte2
  · simpa using byte3

/-- Settles O23: every reading form by the operation its meaning starts with. -/
theorem misalignedReadsFault : Obligations.MisalignedReadsFault := by
  intro s n m d4 d8 a
  refine ⟨fun misaligned => ?_, fun misaligned => ?_⟩
  · exact ⟨fun e => ⟨doLoad16_misaligned misaligned e, execMovwPostInc_misaligned misaligned e⟩,
      doLoad16_misaligned misaligned, doLoad16_misaligned misaligned, doLoad16_misaligned misaligned,
      execMacw_first_misaligned misaligned,
      fun _ other first e => execMacw_second_misaligned misaligned other first e,
      fun idle e => (outsideSlot_of_none idle).trans (doLoad16_misaligned misaligned e)⟩
  · refine ⟨fun e => ?_, doLoad32_misaligned misaligned, doLoad32_misaligned misaligned,
      doLoad32_misaligned misaligned,
      fun idle e => (outsideSlot_of_none idle).trans (returnFromException_misaligned misaligned e), ?_⟩
    · have pop {k : State → Word → Result State} : popLong s m k = .fault (.addressError a .read 4) :=
        popLong_misaligned misaligned e
      simp only [List.forall_mem_cons]
      unfold exec
      exact ⟨doLoad32_misaligned misaligned e, pop, pop, pop, pop, pop, pop, pop, nofun⟩
    · rintro idle frame0 frame1 rfl
      exact (outsideSlot_of_none idle).trans (enterException_vector_misaligned frame0 frame1 misaligned)

/-- Settles O24: every writing form by the operation its meaning starts with. -/
theorem misalignedWritesFault : Obligations.MisalignedWritesFault := by
  intro s n m d4 d8 a
  refine ⟨fun misaligned => ?_, fun misaligned => ?_⟩
  · exact ⟨doStore16_misaligned misaligned, execMovwPreDec_misaligned misaligned, doStore16_misaligned misaligned,
      doStore16_misaligned misaligned, doStore16_misaligned misaligned⟩
  · refine ⟨doStore32_misaligned misaligned, fun e => ?_, doStore32_misaligned misaligned,
      doStore32_misaligned misaligned, doStore32_misaligned misaligned,
      fun idle e => (outsideSlot_of_none idle).trans (enterException_frame_misaligned misaligned e)⟩
    have push {v : Word} : pushLong s n v = .fault (.addressError a .write 4) := pushLong_misaligned misaligned e
    simp only [List.forall_mem_cons]
    unfold exec
    exact ⟨push, push, push, push, push, push, push, nofun⟩

/-- Settles O26: each meaning is the load of its width, by definition. -/
theorem loadResults : Obligations.LoadResults := fun _ _ _ _ _ _ _ =>
  ⟨.of_doLoad8 rfl, .of_doLoad16 rfl, .of_doLoad32 rfl, .of_doLoad8 rfl, .of_doLoad16 rfl, .of_doLoad32 rfl,
    .of_doLoad8 rfl, .of_doLoad16 rfl, .of_doLoad32 rfl⟩

/-- Settles O27, as O26; the three forms relative to the PC are their operation outside a delay slot. -/
theorem gbrAndPcRelativeLoadResults : Obligations.GbrAndPcRelativeLoadResults := fun _ _ _ _ _ _ =>
  ⟨.of_doLoad8 rfl, .of_doLoad16 rfl, .of_doLoad32 rfl, fun idle => .of_doLoad16 (outsideSlot_of_none idle),
    fun idle => .of_doLoad32 (outsideSlot_of_none idle), fun idle => .of_doneReg (outsideSlot_of_none idle)⟩

/-- Settles O45: TAS.B is the store of the byte with bit 7 set, then the write of T. -/
theorem testAndSetResult : Obligations.TestAndSetResult := by
  intro s n b reads data
  have meaning : exec (.tasb n) s = _ := execTasb_eq reads data
  rw [meaning, or_bit7, beq_zero_iff_toNat]
  exact doneSr_after_putByte s _ _ _

/-- Settles O5: the fetch answers the code at pc, and the step is `exec` of what it decodes to. -/
theorem stepRunsDecodedInstruction : Obligations.StepRunsDecodedInstruction := by
  intro s op i executes even text0 text1 holds defined
  have fetched := fetch_of_code even text0 text1 holds
  exact (step_of_executes executes).trans (stepInstruction_of_defined fetched defined)

end Sys2Proof.Proofs
end

section
/-! PROOF. Family 30_encoding.md. The decoder is taken apart once in each direction: what it reads from a code the encoder
writes (O2), what code a decoded instruction has (O3), and which branch a code selected by a row of the opcode table takes
(O4). The effective addresses in exact integers (O19) and the moves that also step their address register (O28, O30)
follow. -/

open Sys2Proof Sys2Proof.Machine

namespace Sys2Proof

/-! ### From an instruction to its code and back -/

/-- The decoder follows the nibbles that the encoder wrote; one group of forms for each part of the opcode map (R88). -/
theorem decode_encode (i : Instr) : decode (encode i) = some i := by
  unfold encode decode
  cases i with
  | movImm | movwPc | movlPc | movlStoreDisp | movlLoadDisp | addImm | bra | bsr => simp
  | movbStore | movwStore | movlStore | movbPreDec | movwPreDec | movlPreDec | div0s | tstReg | andReg | xorReg
  | orReg | cmpStr | xtrct | mulu | muls => simp [decode2]
  | cmpEq | cmpHs | cmpGe | div1 | cmpHi | cmpGt | sub | subc | subv | add | addc | addv => simp [decode3]
  | movbLoad | movwLoad | movlLoad | mov | movbPostInc | movwPostInc | movlPostInc | notReg | swapb | swapw | negc
  | neg | extub | extuw | extsb | extsw => simp [decode6]
  | movbStoreDisp | movwStoreDisp | movbLoadDisp | movwLoadDisp | cmpEqImm | bt | bf => simp [decode8]
  | movbStoreGbr | movwStoreGbr | movlStoreGbr | trapa | movbLoadGbr | movwLoadGbr | movlLoadGbr | mova
  | tstImm | andImm | xorImm | orImm | tstByte | andByte | xorByte | orByte => simp [decodeC]
  | macw => simp [decode4]
  | shll | shlr | stslMach | stclSr | rotl | rotr | ldslMach | ldclSr | shll2 | shlr2 | ldsMach | jsr | ldcSr | cmpPz
  | stslMacl | stclGbr | cmpPl | ldslMacl | ldclGbr | shll8 | shlr8 | ldsMacl | tasb | ldcGbr | shal | shar
  | stslPr | stclVbr | rotcl | rotcr | ldslPr | ldclVbr | shll16 | shlr16 | ldsPr | jmp | ldcVbr =>
    simp [decode4, decode4Sub]
  | movbStoreIdx | movwStoreIdx | movlStoreIdx | movbLoadIdx | movwLoadIdx | movlLoadIdx => simp [decode0]
  | stcSr | stsMach | stcGbr | stsMacl | stcVbr | movt | stsPr => simp [decode0, decode0Reg]
  | clrt | nop | rts | sett | div0u | sleep | clrmac | rte => rfl

/-! ### A code is its fields -/

section
variable {op : BitVec 16} {i : Instr}

theorem nibbles_of_code (op : BitVec 16) : topNibble op ++ fieldHi op ++ fieldLo op ++ field4 op = op := by
  unfold topNibble fieldHi fieldLo field4
  rw [BitVec.extractLsb'_append_extractLsb'_eq_extractLsb',
    BitVec.extractLsb'_append_extractLsb'_eq_extractLsb',
    BitVec.extractLsb'_append_extractLsb'_eq_extractLsb', BitVec.extractLsb'_eq_self] <;> rfl

theorem nibblesByte_of_code (op : BitVec 16) : topNibble op ++ fieldHi op ++ field8 op = op := by
  unfold topNibble fieldHi field8
  rw [BitVec.extractLsb'_append_extractLsb'_eq_extractLsb',
    BitVec.extractLsb'_append_extractLsb'_eq_extractLsb', BitVec.extractLsb'_eq_self] <;> rfl

theorem nibbleRest_of_code (op : BitVec 16) : topNibble op ++ field12 op = op := by
  unfold topNibble field12
  rw [BitVec.extractLsb'_append_extractLsb'_eq_extractLsb', BitVec.extractLsb'_eq_self]
  rfl

section
variable {a b c d : BitVec 4} {low : BitVec 8}

/-- Layout `nm`: bits 15 to 12 and 3 to 0 are the opcode. -/
theorem code_of_opcodeNm (top : topNibble op = a) (last : field4 op = d) :
    a ++ fieldHi op ++ fieldLo op ++ d = op := by
  rw [← top, ← last, nibbles_of_code]

/-- Layouts `n` and `m`: all but bits 11 to 8 is the opcode. -/
theorem code_of_opcodeN (top : topNibble op = a) (bits : field8 op = low) (e : c ++ d = low) :
    a ++ fieldHi op ++ c ++ d = op := by
  have assoc : a ++ fieldHi op ++ c ++ d = a ++ fieldHi op ++ (c ++ d) := by
    rw [BitVec.append_assoc]
    rfl
  rw [assoc, e, ← top, ← bits, nibblesByte_of_code]

/-- Layout `0`: the whole code is the opcode. -/
theorem code_of_opcode0 (top : topNibble op = a) (high : fieldHi op = b) (bits : field8 op = low) (e : c ++ d = low) :
    a ++ b ++ c ++ d = op := by
  rw [← high, code_of_opcodeN top bits e]

/-- Layouts `md4` and `nd4`: bits 15 to 8 are the opcode. -/
theorem code_of_opcodeRd (top : topNibble op = a) (high : fieldHi op = b) : a ++ b ++ fieldLo op ++ field4 op = op := by
  rw [← top, ← high, nibbles_of_code]

/-- Layouts `i8` and `d8`: bits 15 to 8 are the opcode. -/
theorem code_of_opcodeI (top : topNibble op = a) (high : fieldHi op = b) : a ++ b ++ field8 op = op := by
  rw [← top, ← high, nibblesByte_of_code]

end

/-! ### From a code to its instruction and back

In every branch of a decoder the equations of the branch are the opcode, and the operands are the other fields. -/

theorem encode_of_decode0Zero (top : topNibble op = 0x0#4) (h : decode0Zero op = some i) : encode i = op := by
  unfold decode0Zero at h
  split at h <;> cases h <;> exact code_of_opcode0 top ‹fieldHi op = _› ‹field8 op = _› rfl

theorem encode_of_decode0Reg (top : topNibble op = 0x0#4) (h : decode0Reg op = some i) : encode i = op := by
  unfold decode0Reg at h
  split at h
  case h_8 => exact encode_of_decode0Zero top h
  all_goals cases h; exact code_of_opcodeN top ‹_› rfl

theorem encode_of_decode0 (top : topNibble op = 0x0#4) (h : decode0 op = some i) : encode i = op := by
  unfold decode0 at h
  split at h
  case h_7 => exact encode_of_decode0Reg top h
  all_goals cases h; exact code_of_opcodeNm top ‹_›

theorem encode_of_decode2 (top : topNibble op = 0x2#4) (h : decode2 op = some i) : encode i = op := by
  unfold decode2 at h
  split at h <;> cases h <;> exact code_of_opcodeNm top ‹_›

theorem encode_of_decode3 (top : topNibble op = 0x3#4) (h : decode3 op = some i) : encode i = op := by
  unfold decode3 at h
  split at h <;> cases h <;> exact code_of_opcodeNm top ‹_›

theorem encode_of_decode4Sub (top : topNibble op = 0x4#4) (h : decode4Sub op = some i) : encode i = op := by
  unfold decode4Sub at h
  split at h <;> cases h <;> exact code_of_opcodeN top ‹_› rfl

theorem encode_of_decode4 (top : topNibble op = 0x4#4) (h : decode4 op = some i) : encode i = op := by
  unfold decode4 at h
  split at h
  · cases h; exact code_of_opcodeNm top ‹_›
  · exact encode_of_decode4Sub top h

theorem encode_of_decode6 (top : topNibble op = 0x6#4) (h : decode6 op = some i) : encode i = op := by
  unfold decode6 at h
  split at h <;> cases h <;> exact code_of_opcodeNm top ‹_›

theorem encode_of_decode8 (top : topNibble op = 0x8#4) (h : decode8 op = some i) : encode i = op := by
  unfold decode8 at h
  split at h
  case h_1 | h_2 | h_3 | h_4 => cases h; exact code_of_opcodeRd top ‹_›
  case h_8 => cases h
  all_goals cases h; exact code_of_opcodeI top ‹_›

theorem encode_of_decodeC (top : topNibble op = 0xC#4) (h : decodeC op = some i) : encode i = op := by
  unfold decodeC at h
  split at h <;> cases h <;> exact code_of_opcodeI top ‹_›

theorem encode_of_decode (h : decode op = some i) : encode i = op := by
  unfold decode at h
  split at h
  case h_1 top => exact encode_of_decode0 top h
  case h_3 top => exact encode_of_decode2 top h
  case h_4 top => exact encode_of_decode3 top h
  case h_5 top => exact encode_of_decode4 top h
  case h_7 top => exact encode_of_decode6 top h
  case h_9 top => exact encode_of_decode8 top h
  case h_13 top => exact encode_of_decodeC top h
  case h_2 top | h_6 top => cases h; rw [← nibbles_of_code op, top]; simp [encode]
  case h_8 top | h_10 top | h_14 top | h_15 top => cases h; rw [← nibblesByte_of_code op, top]; simp [encode]
  case h_11 top | h_12 top => cases h; rw [← nibbleRest_of_code op, top]; simp [encode]
  case h_16 => cases h

/-! ### Codes selected by a row of the opcode table -/

section
variable {r : OpRow}

/-- Bits that are all under the mask are those of the row. -/
theorem extract_of_selects (h : r.selects op = true) {k n : Nat} (m : r.mask.extractLsb' k n = BitVec.allOnes n) :
    op.extractLsb' k n = r.code.extractLsb' k n := by
  have e : op &&& r.mask = r.code := by simpa [OpRow.selects] using h
  rw [← e, BitVec.extractLsb'_and, m, BitVec.and_allOnes]

theorem topNibble_of_selects (h : r.selects op = true) (m : topNibble r.mask = BitVec.allOnes 4) :
    topNibble op = topNibble r.code := extract_of_selects h m

theorem fieldHi_of_selects (h : r.selects op = true) (m : fieldHi r.mask = BitVec.allOnes 4) :
    fieldHi op = fieldHi r.code := extract_of_selects h m

theorem field4_of_selects (h : r.selects op = true) (m : field4 r.mask = BitVec.allOnes 4) :
    field4 op = field4 r.code := extract_of_selects h m

theorem field8_of_selects (h : r.selects op = true) (m : field8 r.mask = BitVec.allOnes 8) :
    field8 op = field8 r.code := extract_of_selects h m

theorem eq_code_of_selects (h : r.selects op = true) (m : r.mask = BitVec.allOnes 16) : op = r.code := by
  have e : op &&& r.mask = r.code := by simpa [OpRow.selects] using h
  rw [← e, m, BitVec.and_allOnes]

end

theorem decode_of_top0 (top : topNibble op = 0x0#4) : decode op = decode0 op := by simp [decode, top]
theorem decode_of_top2 (top : topNibble op = 0x2#4) : decode op = decode2 op := by simp [decode, top]
theorem decode_of_top3 (top : topNibble op = 0x3#4) : decode op = decode3 op := by simp [decode, top]
theorem decode_of_top4 (top : topNibble op = 0x4#4) : decode op = decode4 op := by simp [decode, top]
theorem decode_of_top6 (top : topNibble op = 0x6#4) : decode op = decode6 op := by simp [decode, top]
theorem decode_of_top8 (top : topNibble op = 0x8#4) : decode op = decode8 op := by simp [decode, top]
theorem decode_of_topC (top : topNibble op = 0xC#4) : decode op = decodeC op := by simp [decode, top]

/-- A code selected by the row of i decodes to an instruction of that row: the decoder looks at no bit outside the mask
until it has found the instruction. Each group of forms is found by the fields that its decoder looks at. -/
theorem row_of_decode_of_selects (h : i.row.selects op = true) : (decode op).map Instr.row = some i.row := by
  cases i
  all_goals simp only [Instr.row] at h
  case movImm | movwPc | movlPc | movlStoreDisp | movlLoadDisp | addImm | bra | bsr =>
    rw [decode, topNibble_of_selects h rfl]; rfl
  case movbStore | movwStore | movlStore | movbPreDec | movwPreDec | movlPreDec | div0s | tstReg | andReg | xorReg
  | orReg | cmpStr | xtrct | mulu | muls =>
    rw [decode_of_top2 (topNibble_of_selects h rfl), decode2, field4_of_selects h rfl]; rfl
  case cmpEq | cmpHs | cmpGe | div1 | cmpHi | cmpGt | sub | subc | subv | add | addc | addv =>
    rw [decode_of_top3 (topNibble_of_selects h rfl), decode3, field4_of_selects h rfl]; rfl
  case movbLoad | movwLoad | movlLoad | mov | movbPostInc | movwPostInc | movlPostInc | notReg | swapb | swapw
  | negc | neg | extub | extuw | extsb | extsw =>
    rw [decode_of_top6 (topNibble_of_selects h rfl), decode6, field4_of_selects h rfl]; rfl
  case macw =>
    rw [decode_of_top4 (topNibble_of_selects h rfl), decode4, field4_of_selects h rfl]; rfl
  case movbStoreIdx | movwStoreIdx | movlStoreIdx | movbLoadIdx | movwLoadIdx | movlLoadIdx =>
    rw [decode_of_top0 (topNibble_of_selects h rfl), decode0, field4_of_selects h rfl]; rfl
  case movbStoreDisp | movwStoreDisp | movbLoadDisp | movwLoadDisp | cmpEqImm | bt | bf =>
    rw [decode_of_top8 (topNibble_of_selects h rfl), decode8, fieldHi_of_selects h rfl]; rfl
  case movbStoreGbr | movwStoreGbr | movlStoreGbr | trapa | movbLoadGbr | movwLoadGbr | movlLoadGbr | mova
  | tstImm | andImm | xorImm | orImm | tstByte | andByte | xorByte | orByte =>
    rw [decode_of_topC (topNibble_of_selects h rfl), decodeC, fieldHi_of_selects h rfl]; rfl
  case shll | shlr | stslMach | stclSr | rotl | rotr | ldslMach | ldclSr | shll2 | shlr2 | ldsMach | jsr | ldcSr
  | cmpPz | stslMacl | stclGbr | cmpPl | ldslMacl | ldclGbr | shll8 | shlr8 | ldsMacl | tasb | ldcGbr | shal | shar
  | stslPr | stclVbr | rotcl | rotcr | ldslPr | ldclVbr | shll16 | shlr16 | ldsPr | jmp | ldcVbr =>
    rw [decode_of_top4 (topNibble_of_selects h rfl), decode4, field4_of_selects h rfl]
    show Option.map _ (decode4Sub op) = _
    rw [decode4Sub, field8_of_selects h rfl]; rfl
  case stcSr | stsMach | stcGbr | stsMacl | stcVbr | movt | stsPr =>
    rw [decode_of_top0 (topNibble_of_selects h rfl), decode0, field4_of_selects h rfl]
    show Option.map _ (decode0Reg op) = _
    rw [decode0Reg, field8_of_selects h rfl]; rfl
  case clrt | nop | rts | sett | div0u | sleep | clrmac | rte =>
    rw [eq_code_of_selects h rfl]; rfl

/-! ### The opcode table as a list -/

theorem row_mem_opcodeRows (i : Instr) : i.row ∈ opcodeRows := by
  cases i <;> exact List.elem_iff.1 rfl

theorem exists_row_eq_of_mem {r : OpRow} (mem : r ∈ opcodeRows) : ∃ i : Instr, i.row = r := by
  revert r
  simp only [opcodeRows, dataTransferRows, arithmeticRows, logicRows, shiftRows, branchRows, systemControlRows,
    List.forall_mem_append, List.forall_mem_cons, exists_apply_eq_apply, true_and]
  simp

/-- The 133 rows are closed terms; the kernel compares them. -/
theorem opcodeRows_nodup : opcodeRows.Nodup := by decide +kernel

open Laws.EncodesRow in
/-- The laws of the instructions, one for each constructor. -/
theorem row_selects_encode (i : Instr) : i.row.selects (encode i) = true := by
  change Laws.EncodesRow.Statement i
  cases i <;> simp only [
    movImm, movwPc, movlPc, mov, movbStore, movwStore, movlStore, movbLoad, movwLoad, movlLoad, movbPreDec,
    movwPreDec, movlPreDec, movbPostInc, movwPostInc, movlPostInc, movbStoreDisp, movwStoreDisp, movlStoreDisp,
    movbLoadDisp, movwLoadDisp, movlLoadDisp, movbStoreIdx, movwStoreIdx, movlStoreIdx, movbLoadIdx,
    movwLoadIdx, movlLoadIdx, movbStoreGbr, movwStoreGbr, movlStoreGbr, movbLoadGbr, movwLoadGbr, movlLoadGbr,
    mova, movt, swapb, swapw, xtrct, add, addImm, addc, addv, cmpEqImm, cmpEq, cmpHs, cmpGe, cmpHi, cmpGt,
    cmpPz, cmpPl, cmpStr, div1, div0s, div0u, extsb, extsw, extub, extuw, macw, muls, mulu, neg, negc, sub,
    subc, subv, andReg, andImm, andByte, notReg, orReg, orImm, orByte, tasb, tstReg, tstImm, tstByte, xorReg,
    xorImm, xorByte, rotl, rotr, rotcl, rotcr, shal, shar, shll, shlr, shll2, shlr2, shll8, shlr8, shll16,
    shlr16, bf, bt, bra, bsr, jmp, jsr, rts, clrt, clrmac, ldcSr, ldcGbr, ldcVbr, ldclSr, ldclGbr, ldclVbr,
    ldsMach, ldsMacl, ldsPr, ldslMach, ldslMacl, ldslPr, nop, rte, sett, sleep, stcSr, stcGbr, stcVbr, stclSr,
    stclGbr, stclVbr, stsMach, stsMacl, stsPr, stslMach, stslMacl, stslPr, trapa]

/-- Two rows that select the same code are the row of what it decodes to. -/
theorem row_unique {r q : OpRow} (hr : r ∈ opcodeRows) (hq : q ∈ opcodeRows) (selR : r.selects op = true)
    (selQ : q.selects op = true) : r = q := by
  obtain ⟨i, rfl⟩ := exists_row_eq_of_mem hr
  obtain ⟨j, rfl⟩ := exists_row_eq_of_mem hq
  exact Option.some.inj ((row_of_decode_of_selects selR).symm.trans (row_of_decode_of_selects selQ))

theorem row_selects_of_decode (h : decode op = some i) : i.row.selects op = true := by
  rw [← encode_of_decode h]
  exact row_selects_encode i

theorem decode_isSome_eq_definedCode (op : BitVec 16) : (decode op).isSome = definedCode op := by
  rw [Bool.eq_iff_iff, definedCode, List.any_eq_true]
  constructor
  · intro h
    obtain ⟨i, hi⟩ := Option.isSome_iff_exists.1 h
    exact ⟨i.row, row_mem_opcodeRows i, row_selects_of_decode hi⟩
  · rintro ⟨r, mem, sel⟩
    obtain ⟨i, rfl⟩ := exists_row_eq_of_mem mem
    rw [← Option.isSome_map (f := Instr.row), row_of_decode_of_selects sel]
    rfl

end

end Sys2Proof

namespace Sys2Proof.Machine

/-! ### Addresses in exact integers -/

/-- Masking the low two bits rounds down to a multiple of 4 (R100). -/
theorem toNat_clearLowTwo (x : Word) : (x &&& 0xFFFFFFFC#32).toNat = x.toNat / 4 * 4 := by
  have e : x &&& 0xFFFFFFFC#32 = (x >>> 2) <<< 2 := by
    ext k hk
    simp only [BitVec.getElem_and, BitVec.getElem_shiftLeft]
    interval_cases k <;> simp
  rw [e, BitVec.toNat_shiftLeft, BitVec.toNat_ushiftRight, Nat.shiftLeft_eq, Nat.shiftRight_eq_div_pow]
  omega

/-- A zero-extended, scaled displacement (R86). -/
theorem toNat_add_zext_mul {w : Nat} (x : Word) (d : BitVec w) (narrow : w ≤ 32) (k : Nat) :
    (x + zext d * BitVec.ofNat 32 k).toNat = (x.toNat + d.toNat * k) % 2 ^ 32 := by
  simp [zext, BitVec.toNat_setWidth_of_le narrow, Nat.add_mod, Nat.mul_mod]

/-- A sign-extended, doubled displacement (R99). -/
theorem toNat_add_signExtend_double {w : Nat} (x : Word) (d : BitVec w) :
    ((x + d.signExtend 32 * 2#32).toNat : Int) = (x.toNat + d.toInt * 2) % 2 ^ 32 := by
  have sum : x + d.signExtend 32 * 2#32 = BitVec.ofInt 32 (x.toNat + d.toInt * 2) := by
    rw [BitVec.ofInt_add, BitVec.ofInt_mul, BitVec.ofInt_natCast, BitVec.ofNat_toNat, BitVec.setWidth_eq]
    rfl
  rw [sum, BitVec.toNat_ofInt]
  omega

theorem State.toNat_pc4 (s : State) : s.pc4.toNat = (s.pc.toNat + 4) % 2 ^ 32 := by simp [State.pc4]

theorem toNat_eaPcWord (s : State) (d : BitVec 8) :
    (eaPcWord s d).toNat = (s.pc.toNat + 4 + d.toNat * 2) % 2 ^ 32 := by
  rw [eaPcWord, toNat_add_zext_mul _ _ (by decide), State.toNat_pc4, Nat.mod_add_mod]

theorem toNat_eaPcLong (s : State) (d : BitVec 8) :
    (eaPcLong s d).toNat = ((s.pc.toNat + 4) / 4 * 4 + d.toNat * 4) % 2 ^ 32 := by
  rw [eaPcLong, toNat_add_zext_mul _ _ (by decide), State.pc4Masked, toNat_clearLowTwo, State.toNat_pc4]
  omega

theorem toNat_branchTarget {w : Nat} (s : State) (d : BitVec w) :
    ((s.pc4 + d.signExtend 32 * 2#32).toNat : Int) = (s.pc.toNat + 4 + d.toInt * 2) % 2 ^ 32 := by
  rw [toNat_add_signExtend_double, State.toNat_pc4]
  omega

/-! ### A register stepped by an access -/

/-- The increment of Rm, then the write of Rn: with m = n the second write is what remains (log entry 17). -/
theorem doneReg_after_setReg {s : State} {n m : Reg} {v w : Word} :
    ∃ t, doneReg (s.setReg m w) n v = .next t ∧ t.reg n = v ∧ (m ≠ n → t.reg m = w) ∧ t.sr = s.sr ∧
      RegFrame [n, m] s t := by
  obtain ⟨t, ht, result, sr, regs, system, mem, run, advanced⟩ := @doneReg_eq_next (s.setReg m w) n v
  refine ⟨t, ht, result, fun other => ?_, sr, fun r hr => ?_, system, fun a => ?_, run, advanced⟩
  · rw [regs m (by simpa using other), State.reg_setReg_same]
  · obtain ⟨notN, notM⟩ : r ≠ n ∧ r ≠ m := by simpa using hr
    rw [regs r (by simpa using notN), s.reg_setReg_other w notM]
  · rw [mem a, State.setReg_byteAt]

/-- The write of Rn after a store: u is the state the store left. -/
theorem doneReg_after_store {s u : State} {a v : Word} {k : Nat} {n : Reg} (stored : StoreFrame a k [] s u.advance)
    (sr : u.sr = s.sr) :
    ∃ t, doneReg u n v = .next t ∧ (∀ b, t.byteAt b = u.byteAt b) ∧ t.reg n = v ∧ t.sr = s.sr ∧
      StoreFrame a k [n] s t := by
  obtain ⟨outside, regs, system, run, advanced⟩ := stored
  refine ⟨_, rfl, fun b => by simp, by simp, by simp [sr], fun b hb => ?_, fun r hr => ?_, ?_, ?_, ?_⟩
  · simpa using outside b hb
  · rw [State.advance_reg, State.reg_setReg_other _ _ (by simpa using hr), ← regs r (by simp), State.advance_reg]
  · simpa [SameSystem, SameBases, SameMac] using system
  · simpa [SameRun, SameParameters] using run
  · simpa [Advanced, nextPc] using advanced

section
variable {s : State} {n m : Reg}

theorem execMovbPostInc_eq {b : Byte} (reads : ReadsByte s (s.reg m) b) :
    execMovbPostInc n m s = doneReg (s.setReg m (s.reg m + 1#32)) n (sext8 b) := by
  simp [execMovbPostInc, read8_eq_next.2 reads]

theorem execMovwPostInc_eq {h : Half} (reads : ReadsHalf s (s.reg m) h) :
    execMovwPostInc n m s = doneReg (s.setReg m (s.reg m + 2#32)) n (sext16 h) := by
  simp [execMovwPostInc, read16_eq_next.2 reads]

theorem execMovbPreDec_eq (storable : Storable s (s.reg n - 1#32) 1) :
    execMovbPreDec n m s = doneReg (s.putByte (s.reg n - 1#32) (lowByte (s.reg m))) n (s.reg n - 1#32) := by
  simp [execMovbPreDec, write8_eq_next.2 ⟨storable, rfl⟩]

theorem execMovwPreDec_eq (storable : Storable s (s.reg n - 2#32) 2) :
    execMovwPreDec n m s = doneReg (s.putHalf (s.reg n - 2#32) (lowHalf (s.reg m))) n (s.reg n - 2#32) := by
  simp [execMovwPreDec, write16_eq_next.2 ⟨storable, rfl⟩]

end

end Sys2Proof.Machine

namespace Sys2Proof.Proofs

/-- Settles O2, by the groups of the opcode map. -/
theorem decodeInvertsEncode : Obligations.DecodeInvertsEncode := decode_encode

/-- Settles O3, by the branches of the decoder. -/
theorem encodeInvertsDecode : Obligations.EncodeInvertsDecode := fun _ _ => encode_of_decode

/-- Settles O4: the rows are distinct, and a code that a row selects decodes to an instruction of that very row, so no
code is selected by two of them. -/
theorem decodeAcceptsExactlyTheTable : Obligations.DecodeAcceptsExactlyTheTable := by
  refine ⟨rfl, opcodeRows_nodup.pairwise_of_forall_ne fun r hr q hq distinct op => ?_,
    fun op => ⟨decode_isSome_eq_definedCode op, fun _ => row_selects_of_decode⟩⟩
  rintro ⟨selR, selQ⟩
  exact distinct (row_unique hr hq selR selQ)

/-- Settles O19: each mode is one of the sums above. -/
theorem effectiveAddresses : Obligations.EffectiveAddresses := by
  intro s r d4 d8 d12 k _
  refine ⟨toNat_add_zext_mul _ _ (by decide) k, BitVec.toNat_add _ _, toNat_add_zext_mul _ _ (by decide) k,
    BitVec.toNat_add _ _, toNat_eaPcWord s d8, toNat_eaPcLong s d8, toNat_branchTarget s d8, toNat_branchTarget s d12,
    toNat_add_zext_mul _ _ (by decide) 4, ?_, fun even => ?_⟩
  · rw [toNat_eaPcLong]
    omega
  · rw [toNat_eaPcWord]
    omega

/-- Settles O28: a load that completes is the increment of Rm, then the write of Rn. -/
theorem postIncrementLoadResults : Obligations.PostIncrementLoadResults := by
  intro s n m b h v
  refine ⟨fun reads => ?_, fun reads => ?_, fun reads => ?_⟩
  · have meaning : exec (.movbPostInc n m) s = _ := execMovbPostInc_eq reads
    exact meaning ▸ doneReg_after_setReg
  · have meaning : exec (.movwPostInc n m) s = _ := execMovwPostInc_eq reads
    exact meaning ▸ doneReg_after_setReg
  · have meaning : exec (.movlPostInc n m) s = _ := popLong_eq (fun u w => doneReg u n w) reads
    exact meaning ▸ doneReg_after_setReg

/-- Settles O30: a store that completes is the store of Rm, then the write of Rn; the longword form is a push. -/
theorem preDecrementStoreResults : Obligations.PreDecrementStoreResults := by
  intro s n m
  refine ⟨fun storable => ?_, fun storable => ?_, pushLong_eq_next⟩
  · have meaning : exec (.movbPreDec n m) s = _ := execMovbPreDec_eq storable
    obtain ⟨t, ht, bytes, rest⟩ := doneReg_after_store (storeFrame_putByte s _ (lowByte (s.reg m))) rfl
    exact ⟨t, meaning.trans ht, (bytes _).trans (s.byteAt_putByte_same _ _), rest⟩
  · have meaning : exec (.movwPreDec n m) s = _ := execMovwPreDec_eq storable
    obtain ⟨t, ht, bytes, rest⟩ := doneReg_after_store (storeFrame_putHalf s _ (lowHalf (s.reg m))) rfl
    obtain ⟨high, low⟩ := s.holdsHalf_putHalf (s.reg n - 2#32) (lowHalf (s.reg m))
    exact ⟨t, meaning.trans ht, ⟨(bytes _).trans high, (bytes _).trans low⟩, rest⟩

/-- Settles O1, by running the decoder on the twenty codes. -/
theorem listedCodesDecode : Obligations.ListedCodesDecode := by
  unfold Obligations.ListedCodesDecode
  decide

end Sys2Proof.Proofs
end

section
/-! PROOF. Family 40_data_transfer.md. The stores (O29) and the moves between registers (O25) are the shared operation of
their shape: what it does is a law of the operation, cited once for each form. -/

open Sys2Proof Sys2Proof.Machine

namespace Sys2Proof

/-- The last two nibbles of a code are its low byte. -/
theorem append_nibbles (a n c d : BitVec 4) : a ++ n ++ c ++ d = a ++ n ++ (c ++ d) := by
  rw [BitVec.append_assoc]
  rfl

end Sys2Proof

namespace Sys2Proof.Machine

/-! ### Stores that complete -/

section
variable {i : Instr} {s : State} {a : Word}

theorem StoresByte.of_doStore8 {v : Byte} (meaning : exec i s = doStore8 s a v) (storable : Storable s a 1) :
    StoresByte i s a v := by
  rw [StoresByte, meaning]
  exact doStore8_eq_next storable

theorem StoresHalf.of_doStore16 {v : Half} (meaning : exec i s = doStore16 s a v) (storable : Storable s a 2) :
    StoresHalf i s a v := by
  rw [StoresHalf, meaning]
  exact doStore16_eq_next storable

theorem StoresLong.of_doStore32 {v : Word} (meaning : exec i s = doStore32 s a v) (storable : Storable s a 4) :
    StoresLong i s a v := by
  rw [StoresLong, meaning]
  exact doStore32_eq_next storable

end

/-! ### T as a longword -/

theorem zext_ofBool (b : Bool) : zext (BitVec.ofBool b) = if b then 1#32 else 0#32 := by
  cases b <;> rfl

end Sys2Proof.Machine

namespace Sys2Proof.Proofs

/-- Settles O29: each meaning is the store of its width, by definition. -/
theorem storeResults : Obligations.StoreResults := fun _ _ _ _ _ =>
  ⟨.of_doStore8 rfl, .of_doStore16 rfl, .of_doStore32 rfl, .of_doStore8 rfl, .of_doStore16 rfl, .of_doStore32 rfl,
    .of_doStore8 rfl, .of_doStore16 rfl, .of_doStore32 rfl, .of_doStore8 rfl, .of_doStore16 rfl, .of_doStore32 rfl⟩

/-- Settles O25: each meaning is the write of Rn. Only the T bit of MOVT and the low byte of its code are written
differently in the model. -/
theorem registerMoveResults : Obligations.RegisterMoveResults := by
  intro s n m i
  have movt : WritesReg (.movt n) s n (if s.sr.t then 1#32 else 0#32) := by
    rw [← zext_ofBool]
    exact .of_doneReg rfl
  have movtCode : encode (.movt n) = 0b0000#4 ++ n ++ 0b00101001#8 := append_nibbles _ n _ _
  exact ⟨.of_doneReg rfl, rfl, .of_doneReg rfl, rfl, movt, movtCode, .of_doneReg rfl, rfl, .of_doneReg rfl, rfl,
    .of_doneReg rfl, rfl⟩

end Sys2Proof.Proofs
end

section
/-! PROOF. Family 41_arithmetic.md. What an instruction of this family writes and what it leaves is a law of the shared
operation it ends in. What is left are facts of arithmetic, stated once below: a sum or a difference in exact integers
(O31 to O33), the comparison conditions (O34), the division step (O36, O37), extension (O38), the product of two words
(O39) and the saturated accumulator (O41). -/

open Sys2Proof Sys2Proof.Machine

namespace Sys2Proof.Machine

/-! ### Completions -/

section
variable {i : Instr} {s : State} {n : Reg} {v w : Word} {b c : Bool}

/-- An instruction whose meaning writes w, which is the value v of its rule. -/
theorem WritesReg.of_doneReg_eq (meaning : exec i s = doneReg s n w) (value : w = v) : WritesReg i s n v :=
  .of_doneReg (value ▸ meaning)

theorem WritesRegT.of_doneRegT_eq (meaning : exec i s = doneRegT s n w c) (value : w = v) (flag : c = b) :
    WritesRegT i s n v b := by
  subst value flag
  rw [WritesRegT, meaning]
  exact doneRegT_eq_next

theorem WritesSr.of_doneSr {r : StatusReg} (meaning : exec i s = doneSr s r) : WritesSr i s r := by
  rw [WritesSr, meaning]
  exact doneSr_eq_next

theorem WritesT.of_doneT_eq (meaning : exec i s = doneT s c) (flag : c = b) : WritesT i s b :=
  .of_doneSr (flag ▸ meaning)

end

/-! ### Sums and differences in exact integers -/

section
variable (x y : Word) (b : Bool)

theorem ofInt_sub (k l : Int) : BitVec.ofInt 32 (k - l) = BitVec.ofInt 32 k - BitVec.ofInt 32 l := by
  rw [Int.sub_eq_add_neg, BitVec.ofInt_add, BitVec.ofInt_neg, BitVec.sub_eq_add_neg]

theorem ofInt_toNat : BitVec.ofInt 32 x.toNat = x := by simp

theorem ofInt_eq_of_emod_eq {k l : Int} (h : k % 2 ^ 32 = l % 2 ^ 32) : BitVec.ofInt 32 k = BitVec.ofInt 32 l := by
  apply BitVec.eq_of_toNat_eq
  rw [BitVec.toNat_ofInt, BitVec.toNat_ofInt]
  exact congrArg Int.toNat h

/-- The T bit as an operand (R189, R211, R213). -/
theorem zext_ofBool_eq_ofInt : zext (BitVec.ofBool b) = BitVec.ofInt 32 b.toNat := by
  cases b <;> rfl

theorem add_eq_ofNat : x + y = BitVec.ofNat 32 (x.toNat + y.toNat) := by
  simp [BitVec.ofNat_add]

theorem add_eq_ofInt : x + y = BitVec.ofInt 32 (x.toInt + y.toInt) := by
  rw [BitVec.ofInt_add, BitVec.ofInt_toInt, BitVec.ofInt_toInt]

theorem sub_eq_ofInt : x - y = BitVec.ofInt 32 (x.toInt - y.toInt) := by
  rw [ofInt_sub, BitVec.ofInt_toInt, BitVec.ofInt_toInt]

theorem zero_sub_eq_ofInt : 0#32 - y = BitVec.ofInt 32 (-y.toInt) := by
  rw [BitVec.ofInt_neg, BitVec.ofInt_toInt, BitVec.zero_sub]

theorem add_sext8_eq_ofInt (i : Byte) : x + sext8 i = BitVec.ofInt 32 (x.toInt + i.toInt) := by
  rw [BitVec.ofInt_add, BitVec.ofInt_toInt, sext8_eq_ofInt]

theorem addWithCarry_eq_ofInt :
    x + y + zext (BitVec.ofBool b) = BitVec.ofInt 32 (x.toNat + y.toNat + b.toNat) := by
  rw [BitVec.ofInt_add, BitVec.ofInt_add, ofInt_toNat, ofInt_toNat, zext_ofBool_eq_ofInt]

theorem subWithBorrow_eq_ofInt :
    x - y - zext (BitVec.ofBool b) = BitVec.ofInt 32 (x.toNat - y.toNat - b.toNat) := by
  rw [ofInt_sub, ofInt_sub, ofInt_toNat, ofInt_toNat, zext_ofBool_eq_ofInt]

/-- The carry is the exact sum's excess over a register (R189). -/
theorem addCarry_eq_exact : addCarry x y b = decide ((2 ^ 32 : Int) ≤ x.toNat + y.toNat + b.toNat) :=
  decide_eq_decide.2 (by omega)

/-- The borrow is the exact difference's sign (R211, R213). -/
theorem subBorrow_eq_exact : subBorrow x y b = decide ((x.toNat : Int) - y.toNat - b.toNat < 0) :=
  decide_eq_decide.2 (by omega)

/-! ### Signed overflow -/

theorem outsideSigned_eq (v : Int) : outsideSigned v = decide (2 ^ 31 - 1 < v ∨ v < -2 ^ 31) :=
  decide_eq_decide.2 (by omega)

/-- Overflow of a sum, seen in the bits 31 (R190). -/
theorem addOverflow_eq_msb : addOverflow x y = (x.msb == y.msb && (x + y).msb != x.msb) := by
  have range : addOverflow x y = x.saddOverflow y := by
    rw [addOverflow, outsideSigned, BitVec.saddOverflow, ← Bool.decide_or]
    exact decide_eq_decide.2 (by omega)
  rw [range, BitVec.saddOverflow_eq]
  rfl

/-- Overflow of a difference, seen in the bits 31 (R214). -/
theorem subOverflow_eq_msb : subOverflow x y = (x.msb != y.msb && (x - y).msb != x.msb) := by
  have range : subOverflow x y = x.ssubOverflow y := by
    rw [subOverflow, outsideSigned, BitVec.ssubOverflow, ← Bool.decide_or]
    exact decide_eq_decide.2 (by omega)
  rw [range, BitVec.ssubOverflow_eq]
  cases x.msb <;> cases y.msb <;> simp

/-! ### Comparisons -/

theorem beq_eq_decide_toNat : (x == y) = decide (x.toNat = y.toNat) := by
  simp [BitVec.toNat_eq, beq_eq_decide]

/-- Sign extension keeps the signed value, so equality with an immediate is equality of signed values (R191). -/
theorem beq_sext8_eq_decide (i : Byte) : (x == sext8 i) = decide (x.toInt = i.toInt) := by
  have extended : (sext8 i).toInt = i.toInt := BitVec.toInt_signExtend_of_le (by decide)
  rw [beq_eq_decide, ← extended]
  exact decide_eq_decide.2 BitVec.toInt_inj.symm

theorem signedGe_zero : signedGe x 0#32 = !x.msb := by
  rw [signedGe, BitVec.msb_eq_toInt, ← decide_not]
  exact decide_eq_decide.2 (by simp)

theorem signedGt_zero : signedGt x 0#32 = (!x.msb && decide (x ≠ 0#32)) := by
  have positive : 0 < x.toInt ↔ ¬ x.toInt < 0 ∧ x ≠ 0#32 := by
    rw [Ne, ← BitVec.toInt_inj, BitVec.toInt_zero]
    omega
  rw [signedGt, BitVec.msb_eq_toInt, ← decide_not, ← Bool.decide_and]
  exact decide_eq_decide.2 positive

theorem someByteEqual_eq_exists :
    someByteEqual x y = decide (∃ k ∈ List.range 4, x.extractLsb' (8 * k) 8 = y.extractLsb' (8 * k) 8) := by
  rw [Bool.eq_iff_iff, decide_eq_true_iff, show List.range 4 = [0, 1, 2, 3] from rfl]
  simp only [someByteEqual, Bool.or_eq_true, beq_iff_eq, List.exists_mem_cons_iff, List.not_mem_nil, false_and,
    exists_false, or_false, Nat.reduceMul]
  tauto

end

/-! ### The division step -/

/-- The partial remainder shifted left with T shifted in (R200). -/
theorem toNat_shiftIn (r : Word) (t : Bool) :
    (r <<< 1 ||| (BitVec.ofBool t).setWidth 32).toNat = 2 * r.toNat % 2 ^ 32 + t.toNat := by
  have disjoint : r <<< 1 &&& (BitVec.ofBool t).setWidth 32 = 0#32 := by
    ext k hk
    cases k <;> simp
  have bit : t.toNat ≤ 1 := t.toNat_le
  rw [← BitVec.add_eq_or_of_and_eq_zero _ _ disjoint, BitVec.toNat_add, BitVec.toNat_shiftLeft, BitVec.toNat_setWidth,
    BitVec.toNat_ofBool, Nat.shiftLeft_eq]
  omega

/-- The division step in exact integers: y is the shifted partial remainder less or plus the divisor, and c says that it
left the range of a register (R200). -/
theorem divStep_eq_exact {r d : Word} {t q m : Bool} {x y : Int} {c : Bool}
    (hx : x = (2 * r.toNat % 2 ^ 32 : Nat) + t.toNat)
    (hy : y = if q = m then x - d.toNat else x + d.toNat)
    (hc : c = if q = m then decide (y < 0) else decide (2 ^ 32 ≤ y)) :
    divStep r d t q m = ⟨BitVec.ofInt 32 y, (r.msb ^^ c) ^^ m, !(r.msb ^^ c)⟩ := by
  have shifted : x = (r <<< 1 ||| (BitVec.ofBool t).setWidth 32).toNat := by
    rw [toNat_shiftIn, hx, Nat.cast_add]
  subst hc hy shifted
  unfold divStep
  by_cases same : q = m
  · simp only [if_pos same, subBorrow_eq_exact, ofInt_sub, ofInt_toNat, Bool.toNat_false, Nat.cast_zero, sub_zero]
  · simp only [if_neg same, addCarry_eq_exact, BitVec.ofInt_add, ofInt_toNat, Bool.toNat_false,
      Nat.cast_zero, add_zero]

/-- What the register holds of a partial remainder, read as an unsigned number. -/
theorem toNat_of_partialRemainder {r : Word} {q : Bool} {p d : Nat} (lt : p < d) (bound : d < 2 ^ 32)
    (holds : r = BitVec.ofInt 32 (if q then (p : Int) - d else p)) :
    (r.toNat : Int) = if q then (p : Int) - d + 2 ^ 32 else (p : Int) := by
  subst holds
  rw [BitVec.toNat_ofInt]
  cases q with
  | false => simp only [Bool.false_eq_true, if_false]; omega
  | true => simp only [if_true]; omega

theorem decide_xor_decide {a b c : Prop} [Decidable a] [Decidable b] [Decidable c] (h : c ↔ ¬(a ↔ b)) :
    (decide a ^^ decide b) = decide c := by
  rw [Bool.eq_iff_iff, Bool.xor_iff_ne, Ne, decide_eq_decide, decide_eq_true_iff, h]

/-- Non-restoring division: on a partial remainder p, held as p (Q = 0) or as p - d (Q = 1), the step leaves 2p + T - d
and records in Q whether that is negative (R183, R184, R200 with M = 0). The bit shifted out and the borrow or carry
differ exactly then. -/
theorem divStep_of_partialRemainder {r v : Word} {t q m : Bool} {p d : Nat} (hm : m = false) (divisor : v.toNat = d)
    (lt : p < d) (holds : r = BitVec.ofInt 32 (if q then (p : Int) - d else p)) :
    divStep r v t q m =
      ⟨BitVec.ofInt 32 (2 * p + t.toNat - d), decide (2 * p + t.toNat < d), !decide (2 * p + t.toNat < d)⟩ := by
  have bound : d < 2 ^ 32 := divisor ▸ v.isLt
  have bit : t.toNat ≤ 1 := t.toNat_le
  have held := toNat_of_partialRemainder lt bound holds
  rw [divStep_eq_exact rfl rfl rfl, divisor, hm, Bool.xor_false, BitVec.msb_eq_decide]
  cases q with
  | false =>
    simp only [Bool.false_eq_true, if_false, if_true] at held ⊢
    rw [decide_xor_decide (c := 2 * p + t.toNat < d) (by omega), ofInt_eq_of_emod_eq]
    omega
  | true =>
    simp only [Bool.true_eq_false, if_false, if_true] at held ⊢
    rw [decide_xor_decide (c := 2 * p + t.toNat < d) (by omega), ofInt_eq_of_emod_eq]
    omega

/-- The quotient digit of 2p + T by d is 0 or 1, as p is smaller than d. -/
theorem div_mod_of_partialRemainder {k d : Nat} (small : k < 2 * d) :
    k / d = (!decide (k < d)).toNat ∧ ((k % d : Nat) : Int) = if k < d then (k : Int) else k - d := by
  by_cases less : k < d
  · simp [less, Nat.div_eq_of_lt, Nat.mod_eq_of_lt]
  · have quotient : k / d = 1 := Nat.div_eq_of_lt_le (by omega) (by omega)
    have remainder : k % d = k - d := by rw [Nat.mod_eq_sub_mod (by omega), Nat.mod_eq_of_lt (by omega)]
    simp [less, quotient, remainder, Nat.le_of_not_lt less]

/-- A register and SR written together. -/
theorem doneSr_after_setReg {s : State} {n : Reg} {v : Word} {r : StatusReg} :
    ∃ t, doneSr (s.setReg n v) r = .next t ∧ t.reg n = v ∧ t.sr = r ∧ RegFrame [n] s t := by
  obtain ⟨t, ht, sr, regs, system, mem, run, advanced⟩ := @doneSr_eq_next (s.setReg n v) r
  refine ⟨t, ht, ?_, sr, fun k hk => ?_, system, fun a => ?_, run, advanced⟩
  · rw [regs n (by simp), State.reg_setReg_same]
  · rw [regs k (by simp), State.reg_setReg_other _ _ (by simpa using hk)]
  · rw [mem a, State.setReg_byteAt]

/-- DIV1 completes with what the division step leaves (R200). -/
theorem exec_div1_completes {s : State} {n m : Reg} {r : DivStep}
    (e : divStep (s.reg n) (s.reg m) s.sr.t s.sr.q s.sr.m = r) :
    ∃ t, exec (.div1 n m) s = .next t ∧ t.reg n = r.value ∧ t.sr = { s.sr with q := r.q, t := r.t } ∧
      RegFrame [n] s t := by
  subst e
  exact doneSr_after_setReg

/-! ### Extension -/

/-- The low w bits of a longword as a signed number (R203, R204). -/
theorem toInt_lowBits {w : Nat} (v : Word) (narrow : w ≤ 32) :
    (v.extractLsb' 0 w).toInt = v.toInt.bmod (2 ^ w) := by
  rw [← BitVec.setWidth_eq_extractLsb' narrow, BitVec.toInt_setWidth, BitVec.toInt_eq_toNat_bmod,
    Int.bmod_bmod_of_dvd (Nat.pow_dvd_pow 2 narrow)]

/-- The low w bits of a longword as an unsigned number (R205, R206). -/
theorem zext_lowBits {w : Nat} (v : Word) (narrow : w ≤ 32) :
    zext (v.extractLsb' 0 w) = BitVec.ofNat 32 (v.toNat % 2 ^ w) := by
  rw [zext, ← BitVec.setWidth_eq_extractLsb' narrow, ← BitVec.toNat_setWidth, BitVec.ofNat_toNat]

theorem sext8_lowByte (v : Word) : sext8 (lowByte v) = BitVec.ofInt 32 (v.toInt.bmod 256) := by
  rw [sext8_eq_ofInt, lowByte, toInt_lowBits v (by decide)]
  rfl

theorem sext16_lowHalf (v : Word) : sext16 (lowHalf v) = BitVec.ofInt 32 (v.toInt.bmod 65536) := by
  rw [sext16_eq_ofInt, lowHalf, toInt_lowBits v (by decide)]
  rfl

/-! ### Products -/

theorem toNat_lowHalf (v : Word) : (lowHalf v).toNat = v.toNat % 65536 := by
  simp [lowHalf]

/-- The signed product of two words fits a longword (R208). -/
theorem toInt_ofInt_mul (a b : Half) : (BitVec.ofInt 32 (a.toInt * b.toInt)).toInt = a.toInt * b.toInt := by
  have least : -2 ^ 30 ≤ a.toInt * b.toInt := BitVec.le_toInt_mul_toInt
  have greatest : a.toInt * b.toInt ≤ 2 ^ 30 := BitVec.toInt_mul_toInt_le
  exact BitVec.toInt_ofInt_eq_self (by decide) (by omega) (by omega)

/-- The unsigned product of two words fits a longword (R209). -/
theorem toNat_ofNat_mul (a b : Half) : (BitVec.ofNat 32 (a.toNat * b.toNat)).toNat = a.toNat * b.toNat := by
  have fits : a.toNat * b.toNat < 2 ^ 16 * 2 ^ 16 := Nat.mul_lt_mul'' a.isLt b.isLt
  rw [BitVec.toNat_ofNat, Nat.mod_eq_of_lt (by omega)]

/-- An instruction that writes MACL alone (R208, R209). -/
theorem done_after_macl {s : State} {v : Word} :
    ∃ t, done { s with macl := v } = .next t ∧ t.macl = v ∧ t.mach = s.mach ∧ t.sr = s.sr ∧ t.pr = s.pr ∧
      SameBases s t ∧ SameRegs [] s t ∧ SameMem s t ∧ SameRun s t ∧ Advanced s t := by
  obtain ⟨regs, ⟨bases, ⟨mach, macl⟩, pr⟩, mem, run, advanced⟩ := regFrame_advance { s with macl := v }
  exact ⟨_, rfl, macl, mach, State.advance_sr _, pr, bases, regs, mem, run, advanced⟩

/-! ### The saturated accumulator -/

/-- An exact sum limited to the range of MACL (R207). -/
def saturate (r : Int) : Int := max (-2 ^ 31) (min (2 ^ 31 - 1) r)

theorem toInt_ofInt_saturate (r : Int) : (BitVec.ofInt 32 (saturate r)).toInt = saturate r := by
  unfold saturate
  exact BitVec.toInt_ofInt_eq_self (by decide) (by omega) (by omega)

/-- With S = 1 MACL saturates, and bit 0 of MACH records that it did (R207). -/
theorem accumulate_of_saturating {s : State} (hs : s.sr.s = true) (p : Int) :
    accumulate s p = s.withMac
      (if s.macl.toInt + p < -2 ^ 31 ∨ 2 ^ 31 - 1 < s.macl.toInt + p then s.mach ||| 1#10 else s.mach)
      (BitVec.ofInt 32 (saturate (s.macl.toInt + p))) := by
  unfold accumulate
  simp only [hs, if_true]
  generalize s.macl.toInt + p = r
  split
  · next above =>
    have limit : saturate r = 2147483647 := by unfold saturate; omega
    rw [if_pos (by omega), limit]
    rfl
  · split
    · next below =>
      have limit : saturate r = -2147483648 := by unfold saturate; omega
      rw [if_pos (by omega), limit]
      rfl
    · have inside : saturate r = r := by unfold saturate; omega
      rw [if_neg (by omega), inside]
      rfl

end Sys2Proof.Machine

namespace Sys2Proof.Proofs

/-- Settles O31: each meaning is the write of Rn with the sum or difference modulo 2^32. -/
theorem addSubNegResults : Obligations.AddSubNegResults := fun _ _ _ _ =>
  ⟨.of_doneReg_eq rfl (add_eq_ofNat _ _), rfl, .of_doneReg_eq rfl (add_sext8_eq_ofInt _ _), rfl,
    .of_doneReg_eq rfl (sub_eq_ofInt _ _), rfl, .of_doneReg_eq rfl (zero_sub_eq_ofInt _), rfl⟩

/-- Settles O32: the value is the exact result modulo 2^32, and the flag says that the result left the range. -/
theorem carryAndBorrowResults : Obligations.CarryAndBorrowResults := by
  rintro s n m _ _ _ rfl rfl rfl
  exact ⟨.of_doneRegT_eq rfl (addWithCarry_eq_ofInt _ _ _) (addCarry_eq_exact _ _ _), rfl,
    .of_doneRegT_eq rfl (subWithBorrow_eq_ofInt _ _ _) (subBorrow_eq_exact _ _ _), rfl,
    .of_doneRegT_eq rfl (subWithBorrow_eq_ofInt 0#32 _ _) (subBorrow_eq_exact 0#32 _ _), rfl⟩

/-- Settles O33: each form twice, with the flag as a range and as a test of the bits 31. -/
theorem overflowResults : Obligations.OverflowResults := by
  rintro s n m _ _ rfl rfl
  exact ⟨.of_doneRegT_eq rfl (add_eq_ofInt _ _) (outsideSigned_eq _),
    .of_doneRegT_eq rfl rfl (addOverflow_eq_msb _ _), rfl,
    .of_doneRegT_eq rfl (sub_eq_ofInt _ _) (outsideSigned_eq _),
    .of_doneRegT_eq rfl rfl (subOverflow_eq_msb _ _), rfl⟩

/-- Settles O34: each meaning is the write of T; the four ordered comparisons are the model's own conditions. -/
theorem compareResults : Obligations.CompareResults := fun _ n _ _ =>
  ⟨.of_doneT_eq rfl (beq_sext8_eq_decide _ _), rfl, .of_doneT_eq rfl (beq_eq_decide_toNat _ _), rfl,
    .of_doneT_eq rfl rfl, rfl, .of_doneT_eq rfl rfl, rfl, .of_doneT_eq rfl rfl, rfl, .of_doneT_eq rfl rfl, rfl,
    .of_doneT_eq rfl (signedGe_zero _), append_nibbles _ n _ _, .of_doneT_eq rfl (signedGt_zero _),
    append_nibbles _ n _ _, .of_doneT_eq rfl (someByteEqual_eq_exists _ _), rfl⟩

/-- Settles O36: the step of DIV1 in exact integers. -/
theorem div1StepResult : Obligations.Div1StepResult := fun _ _ _ _ _ _ hx hy hc =>
  exec_div1_completes (divStep_eq_exact hx hy hc)

/-- Settles O37: DIV1 leaves 2p + T - d and its sign in Q, which are the quotient digit and the new remainder. -/
theorem div1DividesUnsigned : Obligations.Div1DividesUnsigned := by
  intro s n m p d other hm divisor lt holds
  have bit : s.sr.t.toNat ≤ 1 := s.sr.t.toNat_le
  obtain ⟨t, ht, value, sr, regs, -⟩ := exec_div1_completes (divStep_of_partialRemainder hm divisor lt holds)
  obtain ⟨quotient, remainder⟩ := div_mod_of_partialRemainder (show 2 * p + s.sr.t.toNat < 2 * d by omega)
  refine ⟨t, ht, by simp [sr, hm], by simp [sr], by rw [sr, quotient], regs m (by simpa using other.symm), ?_⟩
  rw [value, sr, remainder]
  by_cases less : 2 * p + s.sr.t.toNat < d
  · simp [less]
  · simp [less]

/-- Settles O38: each meaning is the write of Rn with the low bits of Rm, extended. -/
theorem extensionResults : Obligations.ExtensionResults := fun _ _ _ =>
  ⟨.of_doneReg_eq rfl (sext8_lowByte _), rfl, .of_doneReg_eq rfl (sext16_lowHalf _), rfl,
    .of_doneReg_eq rfl (zext_lowBits _ (by decide)), rfl, .of_doneReg_eq rfl (zext_lowBits _ (by decide)), rfl⟩

/-- Settles O39: each meaning is the write of MACL with a product that fits it. -/
theorem multiplyResults : Obligations.MultiplyResults := by
  intro s n m
  constructor
  · obtain ⟨t, ht, macl, rest⟩ := @done_after_macl s
      (BitVec.ofInt 32 ((lowHalf (s.reg n)).toInt * (lowHalf (s.reg m)).toInt))
    exact ⟨t, ht, by rw [macl, toInt_ofInt_mul]; rfl, rest⟩
  · obtain ⟨t, ht, macl, rest⟩ := @done_after_macl s
      (BitVec.ofNat 32 ((lowHalf (s.reg n)).toNat * (lowHalf (s.reg m)).toNat))
    exact ⟨t, ht, by rw [macl, toNat_ofNat_mul, toNat_lowHalf, toNat_lowHalf], rest⟩

/-- Settles O41: the saturated sum fits MACL, and the increments are those of MAC.W. -/
theorem macSaturatesAtThirtyTwoBits : Obligations.MacSaturatesAtThirtyTwoBits := by
  rintro s n m a b _ saturates ha hb rfl
  have completes := exec_macw_of_reads ha hb
  rw [accumulate_of_saturating (show (s.incrementMacw n m).sr.s = true from saturates)] at completes
  refine ⟨_, completes, ?_, State.advance_mach _, macw_frame rfl⟩
  rw [State.advance_macl, State.withMac_macl]
  exact toInt_ofInt_saturate _

/-- Settles O35: each meaning is the write of SR; bit 31 is the most significant bit. -/
theorem divisionInitialization : Obligations.DivisionInitialization := fun _ _ _ =>
  ⟨.of_doneSr rfl, rfl, .of_doneSr rfl, rfl⟩

end Sys2Proof.Proofs
end

section
/-! PROOF. Family 42_logic.md. What an instruction of this family writes and what it leaves is a law of the shared
operation it ends in. What is left are facts about bits: the immediate meets the low byte of R0 only (O42, O43), and a
result is 0 exactly when no bit is 1 in both operands (O43). -/

open Sys2Proof Sys2Proof.Machine

namespace Sys2Proof.Machine

/-! ### An immediate against a longword -/

theorem zext_eq_append (i : Byte) : zext i = 0#24 ++ i :=
  BitVec.setWidth_eq_append (by decide)

/-- A longword is its high 24 bits and its low byte. -/
theorem eq_high_append_lowByte (v : Word) : v = v.extractLsb' 8 24 ++ v.extractLsb' 0 8 :=
  (BitVec.extractLsb'_append_extractLsb' (w := 24) (len := 8)).symm

/-- AND with a zero-extended immediate clears the high 24 bits (R234). -/
theorem and_zext (v : Word) (i : Byte) : v &&& zext i = 0#24 ++ (v.extractLsb' 0 8 &&& i) := by
  conv_lhs => rw [eq_high_append_lowByte v, zext_eq_append]
  rw [BitVec.and_append, BitVec.and_zero]

/-- OR with a zero-extended immediate keeps the high 24 bits (R238). -/
theorem or_zext (v : Word) (i : Byte) : v ||| zext i = v.extractLsb' 8 24 ++ (v.extractLsb' 0 8 ||| i) := by
  conv_lhs => rw [eq_high_append_lowByte v, zext_eq_append]
  rw [BitVec.or_append, BitVec.or_zero]

/-- XOR with a zero-extended immediate keeps the high 24 bits (R245). -/
theorem xor_zext (v : Word) (i : Byte) : v ^^^ zext i = v.extractLsb' 8 24 ++ (v.extractLsb' 0 8 ^^^ i) := by
  conv_lhs => rw [eq_high_append_lowByte v, zext_eq_append]
  rw [BitVec.xor_append, BitVec.xor_zero]

/-! ### Tests -/

/-- TST on two registers looks for a bit that is 1 in both (R241). -/
theorem and_beq_zero_eq_forall_bits (x y : Word) :
    (x &&& y == 0#32) = decide (∀ k ∈ List.range 32, (x.getLsbD k && y.getLsbD k) = false) := by
  rw [Bool.eq_iff_iff, beq_iff_eq, decide_eq_true_iff, BitVec.zero_iff_eq_false]
  simp only [BitVec.getLsbD_and, List.mem_range]
  refine ⟨fun clear k _ => clear k, fun clear k => ?_⟩
  by_cases inside : k < 32
  · exact clear k inside
  · simp [BitVec.getLsbD_of_ge x k (by omega)]

/-- TST on R0 and an immediate looks at the low byte alone (R242). -/
theorem and_zext_beq_zero_eq (v : Word) (i : Byte) :
    (v &&& zext i == 0#32) = decide (v.extractLsb' 0 8 &&& i = 0#8) := by
  rw [and_zext, beq_eq_decide]
  exact decide_eq_decide.2 (BitVec.append_right_inj 0#24 (t₂ := 0#8))

/-! ### Bytes tested and modified in memory -/

section
variable {i : Instr} {s : State} {a : Word} {b v : Byte} {c : Bool}

/-- An instruction whose meaning reads a byte and writes T. -/
theorem WritesT.of_read8 {f : Byte → Bool} (meaning : exec i s = (read8 s a).andThen fun b => doneT s (f b))
    (reads : ReadsByte s a b) (flag : f b = c) : WritesT i s c :=
  .of_doneT_eq (by rw [meaning, read8_eq_next.2 reads, Result.andThen_next]) flag

/-- An instruction whose meaning writes a byte back changed (R231): the byte read is backed, so it may be stored to
unless it is program text. -/
theorem StoresByte.of_modifyByte {f : Byte → Byte} (meaning : exec i s = modifyByte s a f) (reads : ReadsByte s a b)
    (data : s.isText a = false) (value : f b = v) : StoresByte i s a v :=
  .of_doStore8 (value ▸ meaning.trans (modifyByte_eq f reads)) ⟨reads.1, by simpa [span_one] using data⟩

end

end Sys2Proof.Machine

namespace Sys2Proof.Proofs

/-- Settles O43: each meaning is the write of T; the test is of the bits in both operands. -/
theorem testResults : Obligations.TestResults := fun _ _ _ _ =>
  ⟨.of_doneT_eq rfl (and_beq_zero_eq_forall_bits _ _), rfl, .of_doneT_eq rfl (and_zext_beq_zero_eq _ _), rfl⟩

/-- Settles O44: TST.B is the test of the byte read; the other three write it back changed. -/
theorem byteLogicResults : Obligations.ByteLogicResults := fun _ _ _ reads =>
  ⟨.of_read8 rfl reads (beq_eq_decide _ _), fun data =>
    ⟨.of_modifyByte rfl reads data rfl, .of_modifyByte rfl reads data rfl, .of_modifyByte rfl reads data rfl⟩⟩

/-- Settles O42: each meaning is the write of the bitwise result, with the immediate against the low byte of R0. -/
theorem logicResults : Obligations.LogicResults := fun _ _ _ _ =>
  ⟨.of_doneReg rfl, rfl, .of_doneReg rfl, rfl, .of_doneReg rfl, rfl,
    .of_doneReg_eq rfl (BitVec.allOnes_sub_eq_not _).symm, rfl, .of_doneReg_eq rfl (and_zext _ _), rfl,
    .of_doneReg_eq rfl (or_zext _ _), rfl, .of_doneReg_eq rfl (xor_zext _ _), rfl⟩

end Sys2Proof.Proofs
end

section
/-! PROOF. Family 43_shift.md. What an instruction of this family writes and what it leaves is a law of the shared
operation it ends in. What is left are facts about shifts: a plain shift is a multiplication or a division (O46, O48),
and a one-bit shift that fills the vacated bit is fixed by the bit it takes in (O47, and SHAR in O46). -/

open Sys2Proof Sys2Proof.Machine

namespace Sys2Proof.Machine

section
variable (x : Word)

/-! ### Shifts as arithmetic -/

theorem shiftLeft_eq_ofNat (k : Nat) : x <<< k = BitVec.ofNat 32 (x.toNat * 2 ^ k) := by
  apply BitVec.eq_of_toNat_eq
  rw [BitVec.toNat_shiftLeft, BitVec.toNat_ofNat, Nat.shiftLeft_eq]

theorem ushiftRight_eq_ofNat (k : Nat) : x >>> k = BitVec.ofNat 32 (x.toNat / 2 ^ k) := by
  rw [← Nat.shiftRight_eq_div_pow, ← BitVec.toNat_ushiftRight, BitVec.ofNat_toNat, BitVec.setWidth_eq]

theorem shiftLeft_one_eq_double : x <<< 1 = BitVec.ofNat 32 (2 * x.toNat) := by
  rw [shiftLeft_eq_ofNat, Nat.pow_one, Nat.mul_comm]

/-- An arithmetic shift to the right rounds down (R267). -/
theorem sshiftRight_one_eq_ofInt : x.sshiftRight 1 = BitVec.ofInt 32 (x.toInt / 2) := by
  have half : x.toInt >>> (1 : Nat) = x.toInt / 2 := Int.shiftRight_eq_div_pow _ 1
  rw [← half, ← BitVec.toInt_sshiftRight, BitVec.ofInt_toInt]

/-- Bit 0 tells odd from even. -/
theorem getLsbD_zero_eq_decide_odd : x.getLsbD 0 = decide (x.toNat % 2 = 1) :=
  Nat.testBit_zero _

/-! ### The bits of a rotation by one -/

section
variable {w k : Nat} (v : BitVec w)

theorem getLsbD_zero_rotateLeft_one (wide : 1 < w) : (v.rotateLeft 1).getLsbD 0 = v.getLsbD (w - 1) := by
  rw [BitVec.getLsbD_rotateLeft_of_le wide]
  rfl

theorem getLsbD_succ_rotateLeft_one (hk : k + 1 < w) : (v.rotateLeft 1).getLsbD (k + 1) = v.getLsbD k := by
  rw [BitVec.getLsbD_rotateLeft_of_le (by omega)]
  simp [-BitVec.getLsbD_eq_getElem, hk]

theorem getLsbD_rotateRight_one (hk : k + 1 < w) : (v.rotateRight 1).getLsbD k = v.getLsbD (k + 1) := by
  have inside : k < w - 1 := by omega
  rw [BitVec.getLsbD_rotateRight_of_lt (by omega)]
  simp [inside, Nat.add_comm]

theorem getLsbD_last_rotateRight_one (wide : 1 < w) : (v.rotateRight 1).getLsbD (w - 1) = v.getLsbD 0 := by
  have last : w - 1 < w := by omega
  rw [BitVec.getLsbD_rotateRight_of_lt wide]
  simp [-BitVec.getLsbD_eq_getElem, last]

end

/-! ### One bit shifted in -/

variable {x} {y : Word} {b : Bool}

/-- A left shift with b put in bit 0 is known by its bits (R262, R264). -/
theorem shiftInLow_eq_of_bits (low : y.getLsbD 0 = b) (high : ∀ k < 31, y.getLsbD (k + 1) = x.getLsbD k) :
    x <<< 1 ||| zext (BitVec.ofBool b) = y := by
  refine BitVec.eq_of_getLsbD_eq fun k hk => ?_
  cases k with
  | zero => simp [zext, ← low]
  | succ k =>
    rw [high k (by omega), BitVec.getLsbD_or, BitVec.getLsbD_shiftLeft]
    simp [zext, hk]

/-- A right shift with b put in bit 31 is known by its bits (R263, R265). -/
theorem shiftInHigh_eq_of_bits (low : ∀ k < 31, y.getLsbD k = x.getLsbD (k + 1)) (high : y.getLsbD 31 = b) :
    x >>> 1 ||| zext (BitVec.ofBool b) <<< 31 = y := by
  refine BitVec.eq_of_getLsbD_eq fun k hk => ?_
  by_cases last : k = 31
  · subst last
    simp [zext, ← high]
  · have below : k < 31 := by omega
    rw [low k below]
    simp [below, Nat.add_comm]

variable (x)

/-- To keep bit 31 alone is to put it back in (R267). -/
theorem and_signBit : x &&& 0x80000000#32 = zext (BitVec.ofBool x.msb) <<< 31 := by
  have bit : 0x80000000#32 = BitVec.twoPow 32 31 := by decide
  rw [bit, BitVec.and_twoPow, zext_ofBool, BitVec.msb_eq_getLsbD_last]
  cases x.getLsbD 31 <;> rfl

/-- SHAR takes bit 31 in again, which keeps the sign (R267). -/
theorem shiftInSign_eq_sshiftRight : x >>> 1 ||| x &&& 0x80000000#32 = x.sshiftRight 1 := by
  rw [and_signBit]
  refine shiftInHigh_eq_of_bits (fun k hk => ?_) ?_
  · rw [BitVec.getLsbD_sshiftRight, if_pos (by omega), Nat.add_comm]
    simp [show ¬ 32 ≤ k by omega]
  · rw [BitVec.getLsbD_sshiftRight]
    simp

theorem shiftInLow_msb_eq_rotateLeft : x <<< 1 ||| zext (BitVec.ofBool x.msb) = x.rotateLeft 1 :=
  shiftInLow_eq_of_bits ((getLsbD_zero_rotateLeft_one x (by decide)).trans (BitVec.msb_eq_getLsbD_last x).symm)
    fun _ hk => getLsbD_succ_rotateLeft_one x (by omega)

theorem shiftInHigh_lsb_eq_rotateRight :
    x >>> 1 ||| zext (BitVec.ofBool (x.getLsbD 0)) <<< 31 = x.rotateRight 1 :=
  shiftInHigh_eq_of_bits (fun _ hk => getLsbD_rotateRight_one x (by omega))
    (getLsbD_last_rotateRight_one x (by decide))

/-! ### T and Rn as 33 bits -/

variable (b)

/-- T goes to bit 0 (R264). -/
theorem shiftInLow_eq_rotateLeft33 :
    x <<< 1 ||| zext (BitVec.ofBool b) = ((BitVec.ofBool b ++ x).rotateLeft 1).extractLsb' 0 32 := by
  refine shiftInLow_eq_of_bits ?_ fun k hk => ?_
  · rw [BitVec.getLsbD_extractLsb', getLsbD_zero_rotateLeft_one _ (by decide), BitVec.getLsbD_append]
    simp
  · rw [BitVec.getLsbD_extractLsb', Nat.zero_add, getLsbD_succ_rotateLeft_one _ (by omega), BitVec.getLsbD_append,
      if_pos (by omega)]
    simp [show k + 1 < 32 by omega]

/-- Bit 31 of Rn goes to T (R264). -/
theorem msb_eq_rotateLeft33 : x.msb = ((BitVec.ofBool b ++ x).rotateLeft 1).getLsbD 32 := by
  rw [getLsbD_succ_rotateLeft_one _ (by decide), BitVec.getLsbD_append, BitVec.msb_eq_getLsbD_last]
  rfl

/-- T goes to bit 31 (R265). -/
theorem shiftInHigh_eq_rotateRight33 :
    x >>> 1 ||| zext (BitVec.ofBool b) <<< 31 = ((x ++ BitVec.ofBool b).rotateRight 1).extractLsb' 1 32 := by
  refine shiftInHigh_eq_of_bits (fun k hk => ?_) ?_
  · rw [BitVec.getLsbD_extractLsb', getLsbD_rotateRight_one _ (by omega), BitVec.getLsbD_append, if_neg (by omega)]
    simp [show k < 32 by omega, show 1 + k + 1 - 1 = k + 1 by omega]
  · rw [BitVec.getLsbD_extractLsb', getLsbD_last_rotateRight_one _ (by decide), BitVec.getLsbD_append]
    simp

/-- Bit 0 of Rn goes to T (R265). -/
theorem getLsbD_zero_eq_rotateRight33 : x.getLsbD 0 = ((x ++ BitVec.ofBool b).rotateRight 1).getLsbD 0 := by
  rw [getLsbD_rotateRight_one _ (by decide), BitVec.getLsbD_append]
  rfl

end

end Sys2Proof.Machine

namespace Sys2Proof.Proofs

/-- Settles O46: the two left shifts are one shift; SHAR shifts its own bit 31 in. -/
theorem oneBitShiftResults : Obligations.OneBitShiftResults := by
  rintro s n _ rfl
  exact ⟨.of_doneRegT_eq rfl (shiftLeft_one_eq_double _) (BitVec.msb_eq_decide _), append_nibbles _ n _ _,
    .of_doneRegT_eq rfl ((shiftInSign_eq_sshiftRight _).trans (sshiftRight_one_eq_ofInt _))
      (getLsbD_zero_eq_decide_odd _), append_nibbles _ n _ _,
    .of_doneRegT_eq rfl (shiftLeft_one_eq_double _) (BitVec.msb_eq_decide _), append_nibbles _ n _ _,
    .of_doneRegT_eq rfl (ushiftRight_eq_ofNat _ 1) (getLsbD_zero_eq_decide_odd _), append_nibbles _ n _ _⟩

/-- Settles O48: a shift by k bits is a multiplication or a division by 2^k. -/
theorem multiBitShiftResults : Obligations.MultiBitShiftResults := by
  rintro s n _ rfl
  exact ⟨.of_doneReg_eq rfl (shiftLeft_eq_ofNat _ 2), append_nibbles _ n _ _,
    .of_doneReg_eq rfl (ushiftRight_eq_ofNat _ 2), append_nibbles _ n _ _,
    .of_doneReg_eq rfl (shiftLeft_eq_ofNat _ 8), append_nibbles _ n _ _,
    .of_doneReg_eq rfl (ushiftRight_eq_ofNat _ 8), append_nibbles _ n _ _,
    .of_doneReg_eq rfl (shiftLeft_eq_ofNat _ 16), append_nibbles _ n _ _,
    .of_doneReg_eq rfl (ushiftRight_eq_ofNat _ 16), append_nibbles _ n _ _⟩

/-- Settles O47: each form is a shift that takes in the bit the rotation brings round. -/
theorem rotateResults : Obligations.RotateResults := by
  rintro s n _ _ rfl rfl
  exact ⟨.of_doneRegT_eq rfl (shiftInLow_msb_eq_rotateLeft _) (BitVec.msb_eq_getLsbD_last _), append_nibbles _ n _ _,
    .of_doneRegT_eq rfl (shiftInHigh_lsb_eq_rotateRight _) rfl, append_nibbles _ n _ _,
    .of_doneRegT_eq rfl (shiftInLow_eq_rotateLeft33 _ _) (msb_eq_rotateLeft33 _ _), append_nibbles _ n _ _,
    .of_doneRegT_eq rfl (shiftInHigh_eq_rotateRight33 _ _) (getLsbD_zero_eq_rotateRight33 _ _),
    append_nibbles _ n _ _⟩

end Sys2Proof.Proofs
end

section
/-! PROOF. Family 44_branch.md. The forms of R292 are those whose meaning is an `outsideSlot`; no other operation answers
IllegalSlot (O17). Outside a delay slot a branch ends in one of two ways, each stated once for every form that ends so:
`BranchesDelayed` (O50) and `BranchesNow` (O49). Where a delayed branch leads (O18) is the pending target of the first
with the advance of pc that every instruction in a delay slot ends in (O16). -/

open Sys2Proof Sys2Proof.Machine

namespace Sys2Proof.Machine

/-! ### The forms of R292 in a delay slot -/

/-- The meaning of a form of R292 is guarded against a pending branch, with its own code in the fault. -/
theorem exec_eq_outsideSlot {i : Instr} (forbidden : i.slotForbidden = true) (s : State) :
    ∃ k, exec i s = outsideSlot i s k := by
  cases i with
  | bra | bsr | jmp | jsr | rts | rte | bf | bt | trapa | mova | movwPc | movlPc => exact ⟨_, rfl⟩
  | _ => cases forbidden

theorem exec_illegalSlot {i : Instr} {s : State} {target : Word} (forbidden : i.slotForbidden = true)
    (pending : s.delay = some target) : exec i s = .fault (.illegalSlot (encode i) s.pc) := by
  obtain ⟨k, meaning⟩ := exec_eq_outsideSlot forbidden s
  rw [meaning, outsideSlot_of_some pending]

/-- A form of R292 that completes was not in a delay slot. -/
theorem delay_eq_none_of_exec {i : Instr} {s t : State} (forbidden : i.slotForbidden = true) (h : exec i s = .next t) :
    s.delay = none := by
  obtain ⟨k, meaning⟩ := exec_eq_outsideSlot forbidden s
  exact (outsideSlot_eq_next.1 (meaning.symm.trans h)).1

/-! ### The other forms: no operation of theirs answers IllegalSlot -/

/-- The operation x does not stop with IllegalSlot. -/
def NeverIllegalSlot {α : Type} (x : Result α) : Prop := ∀ op pc, x ≠ .fault (.illegalSlot op pc)

theorem NeverIllegalSlot.next {α : Type} (a : α) : NeverIllegalSlot (.next a) := nofun

theorem NeverIllegalSlot.andThen {α β : Type} {x : Result α} {f : α → Result β} (hx : NeverIllegalSlot x)
    (hf : ∀ a, NeverIllegalSlot (f a)) : NeverIllegalSlot (Result.andThen x f) := by
  cases x with
  | next a => exact hf a
  | fault r =>
    rintro op pc ⟨⟩
    exact hx op pc rfl
  | refused r => nofun

section
variable {s : State}

theorem checkAligned_neverIllegalSlot (a : Word) (kind : AccessKind) (n : Nat) :
    NeverIllegalSlot (checkAligned a kind n) := by
  unfold checkAligned
  split <;> nofun

theorem checkBacked_neverIllegalSlot (a : Word) (kind : AccessKind) (n : Nat) :
    NeverIllegalSlot (checkBacked s a kind n) := by
  unfold checkBacked
  split <;> nofun

theorem checkNotText_neverIllegalSlot (a : Word) (n : Nat) : NeverIllegalSlot (checkNotText s a n) := by
  unfold checkNotText
  split <;> nofun

theorem checkRead_neverIllegalSlot (a : Word) (n : Nat) : NeverIllegalSlot (checkRead s a n) :=
  (checkAligned_neverIllegalSlot a _ n).andThen fun _ => checkBacked_neverIllegalSlot a _ n

theorem checkWrite_neverIllegalSlot (a : Word) (n : Nat) : NeverIllegalSlot (checkWrite s a n) :=
  (checkAligned_neverIllegalSlot a _ n).andThen fun _ =>
    (checkBacked_neverIllegalSlot a _ n).andThen fun _ => checkNotText_neverIllegalSlot a n

theorem loadByte_neverIllegalSlot (a : Word) : NeverIllegalSlot (loadByte s a) := by
  unfold loadByte
  split <;> nofun

theorem loadHalf_neverIllegalSlot (a : Word) : NeverIllegalSlot (loadHalf s a) :=
  (loadByte_neverIllegalSlot a).andThen fun _ => (loadByte_neverIllegalSlot _).andThen fun _ => .next _

theorem loadLong_neverIllegalSlot (a : Word) : NeverIllegalSlot (loadLong s a) :=
  (loadHalf_neverIllegalSlot a).andThen fun _ => (loadHalf_neverIllegalSlot _).andThen fun _ => .next _

theorem read8_neverIllegalSlot (a : Word) : NeverIllegalSlot (read8 s a) :=
  (checkRead_neverIllegalSlot a 1).andThen fun _ => loadByte_neverIllegalSlot a

theorem read16_neverIllegalSlot (a : Word) : NeverIllegalSlot (read16 s a) :=
  (checkRead_neverIllegalSlot a 2).andThen fun _ => loadHalf_neverIllegalSlot a

theorem read32_neverIllegalSlot (a : Word) : NeverIllegalSlot (read32 s a) :=
  (checkRead_neverIllegalSlot a 4).andThen fun _ => loadLong_neverIllegalSlot a

theorem write8_neverIllegalSlot (a : Word) (v : Byte) : NeverIllegalSlot (write8 s a v) :=
  (checkWrite_neverIllegalSlot a 1).andThen fun _ => .next _

theorem write16_neverIllegalSlot (a : Word) (v : Half) : NeverIllegalSlot (write16 s a v) :=
  (checkWrite_neverIllegalSlot a 2).andThen fun _ => .next _

theorem write32_neverIllegalSlot (a v : Word) : NeverIllegalSlot (write32 s a v) :=
  (checkWrite_neverIllegalSlot a 4).andThen fun _ => .next _

theorem doStore8_neverIllegalSlot (a : Word) (v : Byte) : NeverIllegalSlot (doStore8 s a v) :=
  (write8_neverIllegalSlot a v).andThen fun _ => .next _

end

/-- An instruction that may stand in a delay slot does not stop with IllegalSlot: its meaning is made of reads, writes and
an ending that completes, in the order of its shape. -/
theorem exec_neverIllegalSlot {i : Instr} (s : State) (allowed : i.slotForbidden = false) :
    NeverIllegalSlot (exec i s) := by
  unfold exec
  cases i with
  | bra | bsr | jmp | jsr | rts | rte | bf | bt | trapa | mova | movwPc | movlPc => cases allowed
  | movbLoad | movbLoadDisp | movbLoadIdx | movbLoadGbr | movbPostInc | tstByte =>
    exact (read8_neverIllegalSlot _).andThen fun _ => .next _
  | movwLoad | movwLoadDisp | movwLoadIdx | movwLoadGbr | movwPostInc =>
    exact (read16_neverIllegalSlot _).andThen fun _ => .next _
  | movlLoad | movlLoadDisp | movlLoadIdx | movlLoadGbr | movlPostInc
  | ldclSr | ldclGbr | ldclVbr | ldslMach | ldslMacl | ldslPr =>
    exact (read32_neverIllegalSlot _).andThen fun _ => .next _
  | macw =>
    exact (read16_neverIllegalSlot _).andThen fun _ => (read16_neverIllegalSlot _).andThen fun _ => .next _
  | movbStore | movbStoreDisp | movbStoreIdx | movbStoreGbr => exact doStore8_neverIllegalSlot _ _
  | movbPreDec => exact (write8_neverIllegalSlot _ _).andThen fun _ => .next _
  | movwStore | movwStoreDisp | movwStoreIdx | movwStoreGbr | movwPreDec =>
    exact (write16_neverIllegalSlot _ _).andThen fun _ => .next _
  | movlStore | movlStoreDisp | movlStoreIdx | movlStoreGbr | movlPreDec
  | stclSr | stclGbr | stclVbr | stslMach | stslMacl | stslPr =>
    exact (write32_neverIllegalSlot _ _).andThen fun _ => .next _
  | andByte | orByte | xorByte => exact (read8_neverIllegalSlot _).andThen fun _ => doStore8_neverIllegalSlot _ _
  | tasb =>
    exact (read8_neverIllegalSlot _).andThen fun _ => (write8_neverIllegalSlot _ _).andThen fun _ => .next _
  | _ => exact .next _

/-! ### Delayed branches -/

/-- i completes with a delayed branch to `target` pending and `pr` in PR; nothing else changes. -/
def BranchesDelayed (i : Instr) (s : State) (pr target : Word) : Prop :=
  ∃ t, exec i s = .next t ∧ BranchFrame s t ∧ t.pr = pr ∧ BranchPending target s t

section
variable {i slot : Instr} {s s1 s2 : State} {pr target v : Word}

/-- A meaning that writes PR and ends as a delayed branch; without a write of PR, `pr` is what PR holds. -/
theorem BranchesDelayed.of_branchDelayed (idle : s.delay = none)
    (meaning : exec i s = outsideSlot i s (.next ({ s with pr := pr }.branchDelayed target))) :
    BranchesDelayed i s pr target :=
  ⟨_, meaning.trans (outsideSlot_of_none idle),
    ⟨fun _ _ => rfl, rfl, ⟨rfl, rfl⟩, ⟨rfl, rfl⟩, fun _ => rfl, rfl, .refl s, rfl⟩, rfl, rfl, rfl⟩

theorem bra_branchesDelayed (idle : s.delay = none) (d : BitVec 12) :
    BranchesDelayed (.bra d) s s.pr (target12 s d) :=
  .of_branchDelayed idle rfl

theorem bsr_branchesDelayed (idle : s.delay = none) (d : BitVec 12) :
    BranchesDelayed (.bsr d) s s.pc4 (target12 s d) :=
  .of_branchDelayed idle rfl

theorem jmp_branchesDelayed (idle : s.delay = none) (m : Reg) : BranchesDelayed (.jmp m) s s.pr (s.reg m) :=
  .of_branchDelayed idle rfl

theorem jsr_branchesDelayed (idle : s.delay = none) (m : Reg) : BranchesDelayed (.jsr m) s s.pc4 (s.reg m) :=
  .of_branchDelayed idle rfl

theorem rts_branchesDelayed (idle : s.delay = none) : BranchesDelayed .rts s s.pr s.pr := .of_branchDelayed idle rfl

/-! ### Where a delayed branch leads -/

/-- Whatever completes in a delay slot, pc is the pending target after it (R290 item 8). -/
theorem branchedTo_of_pending (pending : s1.delay = some target) (completes : exec slot s1 = .next s2) :
    BranchedTo target s2 :=
  (Proofs.programCounterAdvance slot s1 s2 completes).1 target pending

/-- The state in the delay slot of a branch, and the state after the slot. -/
theorem BranchesDelayed.reaches (branches : BranchesDelayed i s pr target) (branch : exec i s = .next s1)
    (completes : exec slot s1 = .next s2) : BranchedTo target s2 ∧ s1.pr = pr := by
  obtain ⟨t, ht, -, hpr, pending, -⟩ := branches
  obtain rfl : t = s1 := by simpa [ht] using branch
  exact ⟨branchedTo_of_pending pending completes, hpr⟩

/-- RTE leaves the longword that R15 points at pending (R344). -/
theorem rte_pending (reads : ReadsLong s (s.reg 15#4) v) (h : exec .rte s = .next s1) : s1.delay = some v := by
  obtain ⟨-, returned⟩ := outsideSlot_eq_next.1 (show outsideSlot .rte s (returnFromException s) = .next s1 from h)
  obtain ⟨newPc, -, reads', -, rfl⟩ := returnFromException_eq_next.1 returned
  obtain rfl : v = newPc := by simpa [read32_eq_next.2 reads] using read32_eq_next.2 reads'
  rfl

end

/-! ### BF and BT -/

/-- i completes at `target` with nothing pending; nothing else changes. -/
def BranchesNow (i : Instr) (s : State) (target : Word) : Prop :=
  ∃ t, exec i s = .next t ∧ BranchFrame s t ∧ t.pr = s.pr ∧ BranchedTo target t

section
variable {i : Instr} {s : State} {target : Word}

theorem BranchesNow.of_branchNow (idle : s.delay = none) (meaning : exec i s = .next (s.branchNow target)) :
    BranchesNow i s target :=
  ⟨_, meaning, ⟨fun _ _ => rfl, rfl, ⟨rfl, rfl⟩, ⟨rfl, rfl⟩, fun _ => rfl, rfl, .refl s, rfl⟩, rfl, rfl, idle⟩

theorem BranchesNow.of_done (idle : s.delay = none) (meaning : exec i s = done s) : BranchesNow i s (s.pc + 2#32) := by
  obtain ⟨regs, ⟨bases, mac, pr⟩, mem, run, -, delay⟩ := regFrame_advance s
  exact ⟨_, meaning, ⟨regs, s.advance_sr, bases, mac, mem, run⟩, pr, by simp [nextPc, idle], delay⟩

/-- A conditional branch goes to its target or on to the next instruction. -/
theorem BranchesNow.of_ite {taken : Prop} [Decidable taken] (idle : s.delay = none)
    (meaning : exec i s = outsideSlot i s (if taken then .next (s.branchNow target) else done s)) :
    BranchesNow i s (if taken then target else s.pc + 2#32) := by
  rw [outsideSlot_of_none idle] at meaning
  by_cases h : taken
  · rw [if_pos h] at meaning ⊢
    exact .of_branchNow idle meaning
  · rw [if_neg h] at meaning ⊢
    exact .of_done idle meaning

end

/-- BF with its condition written as the rule has it, T = 0 (R295). -/
theorem exec_bf (s : State) (d : BitVec 8) :
    exec (.bf d) s =
      outsideSlot (.bf d) s (if s.sr.t = false then .next (s.branchNow (target8 s d)) else done s) := by
  show execBf d s = _
  cases t : s.sr.t <;> simp [execBf, t]

/-! ### The end of a run -/

/-- A running machine at END_PC with nothing pending ends its run (R428). -/
theorem step_of_atEnd {s : State} (running : s.status = .running) (pc : s.pc = s.endPc) (idle : s.delay = none) :
    step s = .next { s with status := .ended } := by
  simp [step, running, State.atEnd, pc, idle]

theorem step_of_ended {s : State} (ended : s.status = .ended) : step s = .fault .runEnded := by
  simp [step, ended]

end Sys2Proof.Machine

namespace Sys2Proof.Proofs

/-- Settles O17: a forbidden form meets its guard; the operations of the others have no such stop. -/
theorem forbiddenFormInDelaySlot : Obligations.ForbiddenFormInDelaySlot := fun _ s _ pending =>
  ⟨fun forbidden => exec_illegalSlot forbidden pending, fun allowed => exec_neverIllegalSlot s allowed⟩

/-- Settles O18: each delayed branch leaves its target pending, and the slot instruction ends there. -/
theorem delayedBranchReachesItsTarget : Obligations.DelayedBranchReachesItsTarget := by
  intro s s1 s2 slot completes
  have idle {i : Instr} (h : exec i s = .next s1) (forbidden : i.slotForbidden = true) : s.delay = none :=
    delay_eq_none_of_exec forbidden h
  refine ⟨fun d h => ?_, fun d h => ?_, fun m h => ?_, fun m h => ?_, fun h => ?_, fun v reads h => ?_⟩
  · exact ((bra_branchesDelayed (idle h rfl) d).reaches h completes).1
  · exact (bsr_branchesDelayed (idle h rfl) d).reaches h completes
  · exact ((jmp_branchesDelayed (idle h rfl) m).reaches h completes).1
  · exact (jsr_branchesDelayed (idle h rfl) m).reaches h completes
  · exact ((rts_branchesDelayed (idle h rfl)).reaches h completes).1
  · exact branchedTo_of_pending (rte_pending reads h) completes

/-- Settles O7: the end of the run is the first thing a running machine looks for. -/
theorem runEndsAtEndPc : Obligations.RunEndsAtEndPc := fun _ => ⟨step_of_atEnd, step_of_ended⟩

/-- Settles O49: both forms are a choice between a branch and the advance of pc, guarded against a pending branch. -/
theorem conditionalBranchResults : Obligations.ConditionalBranchResults := by
  intro s d
  refine ⟨fun idle => ⟨BranchesNow.of_ite idle (exec_bf s d), BranchesNow.of_ite idle rfl⟩, fun inSlot => ?_, rfl, rfl⟩
  obtain ⟨target, pending⟩ := Option.ne_none_iff_exists'.1 inSlot
  exact ⟨exec_illegalSlot rfl pending, exec_illegalSlot rfl pending⟩

/-- Settles O50: each form is a delayed branch, with or without a write of PR. -/
theorem delayedBranchResults : Obligations.DelayedBranchResults := fun _ d m idle =>
  ⟨bra_branchesDelayed idle d, bsr_branchesDelayed idle d, jmp_branchesDelayed idle m, jsr_branchesDelayed idle m,
    rts_branchesDelayed idle⟩

end Sys2Proof.Proofs
end

section
/-! PROOF. Family 45_system_control.md. The moves to and from the special registers (O51 to O55) end in one of the
shared operations: a write of Rn, a push, or new contents of SR and the system registers, `State.withSystem`. The entry
of an exception is one state, `State.enterHandler`: TRAPA (O57) and the acceptance of an interrupt (O60) reach it, and
RTE (O56) undoes it (O58), because the two longwords of its frame do not overlap. -/

open Sys2Proof Sys2Proof.Machine

namespace Sys2Proof.Machine

/-! ### SR and MACH as longwords -/

/-- The reserved bits of SR read as 0 (R25). -/
theorem StatusReg.toWord_and_mask (r : StatusReg) : r.toWord &&& 0x000003F3#32 = r.toWord := by
  rw [← StatusReg.toWord_ofWord, StatusReg.ofWord_toWord]

/-- Where the fields of SR stand in the longword (R24). -/
theorem StatusReg.toWord_bits (r : StatusReg) :
    r.toWord.getLsbD 0 = r.t ∧ r.toWord.getLsbD 1 = r.s ∧ r.toWord.extractLsb' 4 4 = r.i ∧
      r.toWord.getLsbD 8 = r.q ∧ r.toWord.getLsbD 9 = r.m :=
  have fields := r.ofWord_toWord
  ⟨congrArg StatusReg.t fields, congrArg StatusReg.s fields, congrArg StatusReg.i fields,
    congrArg StatusReg.q fields, congrArg StatusReg.m fields⟩

theorem sext10_eq_ofInt (v : BitVec 10) : sext10 v = BitVec.ofInt 32 v.toInt := rfl

theorem toNat_lowTenBits (v : Word) : (v.extractLsb' 0 10).toNat = v.toNat % 1024 := by simp

/-! ### Writes of SR and the system registers -/

/-- The state with other contents of SR and the system registers. -/
def State.withSystem (s : State) (sr : StatusReg) (gbr vbr : Word) (mach : BitVec 10) (macl pr : Word) : State :=
  { s with sr := sr, gbr := gbr, vbr := vbr, mach := mach, macl := macl, pr := pr }

theorem done_eq (s : State) : done s = .next { s with pc := nextPc s, delay := none } := by
  cases h : s.delay <;> simp [done, State.advance, nextPc, h]

section
variable {i : Instr} {s : State} {n m : Reg} {v w : Word} {post : State → Prop} {sr : StatusReg} {gbr vbr : Word}
  {mach : BitVec 10} {macl pr : Word}

/-- An instruction that writes SR and the system registers and ends there. -/
theorem Moves.of_done (meaning : exec i s = done (s.withSystem sr gbr vbr mach macl pr))
    (holds : post { s.withSystem sr gbr vbr mach macl pr with pc := nextPc s, delay := none }) : Moves i s post :=
  ⟨_, meaning.trans (done_eq _), holds, fun _ _ => rfl, fun _ => rfl,
    ⟨rfl, .refl s, rfl⟩, rfl, rfl⟩

/-- An instruction that pops a longword and writes SR and the system registers after the increment. -/
theorem PopsLong.of_popLong (k : State → Word → Result State) (reads : ReadsLong s (s.reg m) v)
    (meaning : exec i s = popLong s m k)
    (move : k (s.setReg m (s.reg m + 4#32)) v =
      done ((s.setReg m (s.reg m + 4#32)).withSystem sr gbr vbr mach macl pr))
    (holds : post { (s.setReg m (s.reg m + 4#32)).withSystem sr gbr vbr mach macl pr with
      pc := nextPc s, delay := none }) : PopsLong i s m post :=
  ⟨_, meaning.trans ((popLong_eq k reads).trans (move.trans (done_eq _))), holds, s.reg_setReg_same m _,
    fun _ hr => s.reg_setReg_other _ (by simpa using hr), fun _ => rfl, ⟨rfl, .refl s, rfl⟩, rfl, rfl⟩

/-- An instruction whose meaning pushes w, which is the value v of its rule. -/
theorem PushesLong.of_pushLong_eq (storable : Storable s (s.reg n - 4#32) 4) (meaning : exec i s = pushLong s n w)
    (value : w = v) : PushesLong i s n v := by
  subst value
  rw [PushesLong, meaning]
  exact pushLong_eq_next storable

end

/-! ### Bytes of a frame -/

/-- A byte belongs to an access when its distance from the address, modulo 2^32, is less than the size. -/
theorem mem_span_iff_toNat_sub_lt {a b : Word} {n : Nat} (fits : n ≤ 2 ^ 32) :
    b ∈ span a n ↔ (b - a).toNat < n := by
  rw [mem_span]
  constructor
  · rintro ⟨k, inside, rfl⟩
    rw [add_sub_cancel_left, BitVec.toNat_ofNat]
    omega
  · intro inside
    refine ⟨(b - a).toNat, inside, ?_⟩
    rw [BitVec.ofNat_toNat, BitVec.setWidth_eq]
    bv_omega

/-- Two aligned longwords are the same or have no byte in common. -/
theorem span_disjoint_of_aligned {a b c : Word} (ha : a.toNat % 4 = 0) (hc : c.toNat % 4 = 0) (other : a ≠ c)
    (inside : b ∈ span a 4) : b ∉ span c 4 := by
  rw [mem_span_iff_toNat_sub_lt (by decide)] at inside ⊢
  bv_omega

/-- A longword depends on its own four bytes alone. -/
theorem HoldsLong.of_same {s t : State} {a v : Word} (h : HoldsLong s a v)
    (same : ∀ b ∈ span a 4, t.byteAt b = s.byteAt b) : HoldsLong t a v := by
  simp only [span_four, List.forall_mem_cons] at same
  obtain ⟨same0, same1, same2, same3, -⟩ := same
  obtain ⟨h0, h1, h2, h3⟩ := h
  exact ⟨same0.trans h0, same1.trans h1, same2.trans h2, same3.trans h3⟩

theorem State.holdsLong_putLong_other {s : State} {a c v : Word} (w : Word) (h : HoldsLong s a v)
    (disjoint : ∀ b ∈ span a 4, b ∉ span c 4) : HoldsLong (s.putLong c w) a v :=
  h.of_same fun b hb => s.sameMemOutside_putLong c w b (disjoint b hb)

/-- An aligned longword of t is readable in any state where its bytes are backed and read as in t. -/
theorem HoldsLong.readsLong_of_kept {t u : State} {a v : Word} (h : HoldsLong t a v) (aligned : a.toNat % 4 = 0)
    (kept : ∀ b ∈ span a 4, u.byteAt b = t.byteAt b ∧ u.backed b = true) : ReadsLong u a v :=
  ⟨⟨aligned, List.all_eq_true.2 fun b hb => (kept b hb).2⟩, h.of_same fun b hb => (kept b hb).1⟩

/-! ### The frame of an exception -/

/-- The state with the frame of an exception in memory, SR and then the return address (R383). -/
def State.pushFrame (s : State) (returnPc : Word) : State :=
  (s.putLong (s.reg 15#4 - 4#32) s.sr.toWord).putLong (s.reg 15#4 - 8#32) returnPc

section
variable (s : State) (returnPc : Word)

@[simp] theorem State.pushFrame_reg (r : Reg) : (s.pushFrame returnPc).reg r = s.reg r := by simp [State.pushFrame]

@[simp] theorem State.pushFrame_backed (b : Word) : (s.pushFrame returnPc).backed b = s.backed b := by
  simp [State.pushFrame]

theorem State.pushFrame_holdsSr : HoldsLong (s.pushFrame returnPc) (s.reg 15#4 - 4#32) s.sr.toWord := by
  refine State.holdsLong_putLong_other _ (s.holdsLong_putLong _ _) fun b hb => ?_
  rw [mem_span_iff_toNat_sub_lt (by decide)] at hb ⊢
  bv_omega

theorem State.pushFrame_holdsPc : HoldsLong (s.pushFrame returnPc) (s.reg 15#4 - 8#32) returnPc :=
  State.holdsLong_putLong _ _ _

theorem State.pushFrame_byteAt_other {b : Word} (notSr : b ∉ span (s.reg 15#4 - 4#32) 4)
    (notPc : b ∉ span (s.reg 15#4 - 8#32) 4) : (s.pushFrame returnPc).byteAt b = s.byteAt b :=
  (State.sameMemOutside_putLong _ _ _ b notPc).trans (s.sameMemOutside_putLong _ _ b notSr)

theorem State.pushFrame_sameMemOutside : SameMemOutside (s.reg 15#4 - 8#32) 8 s (s.pushFrame returnPc) := by
  intro b outside
  rw [mem_span_iff_toNat_sub_lt (by decide)] at outside
  refine s.pushFrame_byteAt_other returnPc ?_ ?_
  all_goals
    rw [mem_span_iff_toNat_sub_lt (by decide)]
    bv_omega

end

/-- The vector entry is read after the pushes: where it lies in the frame it reads what was pushed (R359). -/
theorem readsLong_pushFrame {s : State} {va returnPc target : Word} (storeSr : Storable s (s.reg 15#4 - 4#32) 4)
    (storePc : Storable s (s.reg 15#4 - 8#32) 4)
    (vector : VectorReads s va (s.reg 15#4) s.sr.toWord returnPc target) :
    ReadsLong (s.pushFrame returnPc) va target := by
  have reachable {a : Word} (h : Reachable s a 4) : Reachable (s.pushFrame returnPc) a 4 := by
    simpa [Reachable, Backed, funext_iff] using h
  unfold VectorReads at vector
  split at vector
  · next atSr =>
    subst atSr vector
    exact ⟨reachable storeSr.1, s.pushFrame_holdsSr returnPc⟩
  · split at vector
    · next atPc =>
      subst atPc vector
      exact ⟨reachable storePc.1, s.pushFrame_holdsPc target⟩
    · next notSr notPc =>
      obtain ⟨elsewhere, holds⟩ := vector
      refine ⟨reachable elsewhere, holds.of_same fun b hb => s.pushFrame_byteAt_other returnPc ?_ ?_⟩
      · exact span_disjoint_of_aligned elsewhere.1 storeSr.1.1 notSr hb
      · exact span_disjoint_of_aligned elsewhere.1 storePc.1.1 notPc hb

/-! ### Entry and return -/

/-- The state in which the handler of an exception starts (R383). -/
def State.enterHandler (s : State) (returnPc target : Word) : State :=
  ((s.pushFrame returnPc).setReg 15#4 (s.reg 15#4 - 8#32)).branchNow target

section
variable {s t u : State} {returnPc target newPc newSr : Word} {vector : BitVec 8}

theorem enterException_of_vectorReads (storeSr : Storable s (s.reg 15#4 - 4#32) 4)
    (storePc : Storable s (s.reg 15#4 - 8#32) 4)
    (reads : VectorReads s (vectorAddress s vector) (s.reg 15#4) s.sr.toWord returnPc target) :
    enterException s returnPc vector = .next (s.enterHandler returnPc target) :=
  enterException_eq_next.2 ⟨storeSr, storePc, target, readsLong_pushFrame storeSr storePc reads, rfl⟩

@[simp] theorem State.enterHandler_sr : (s.enterHandler returnPc target).sr = s.sr := by
  simp [State.enterHandler, State.pushFrame]

@[simp] theorem State.enterHandler_status : (s.enterHandler returnPc target).status = s.status := by
  simp [State.enterHandler, State.pushFrame]

@[simp] theorem State.enterHandler_interrupts : (s.enterHandler returnPc target).interrupts = s.interrupts := by
  simp [State.enterHandler, State.pushFrame]

theorem State.enterHandler_sp : (s.enterHandler returnPc target).reg 15#4 = s.reg 15#4 - 8#32 := by
  simp [State.enterHandler]

theorem State.enterHandler_sameSystem : SameSystem s (s.enterHandler returnPc target) := by
  simp [SameSystem, SameBases, SameMac, State.enterHandler, State.pushFrame]

theorem State.enterHandler_sameParameters : SameParameters s (s.enterHandler returnPc target) := by
  simp [SameParameters, State.enterHandler, State.pushFrame]

theorem State.enterHandler_branchedTo (idle : s.delay = none) : BranchedTo target (s.enterHandler returnPc target) := by
  simp [BranchedTo, State.enterHandler, State.pushFrame, idle]

@[simp] theorem State.enterHandler_byteAt (b : Word) :
    (s.enterHandler returnPc target).byteAt b = (s.pushFrame returnPc).byteAt b := by
  simp [State.enterHandler]

theorem State.enterHandler_sameRegs : SameRegs [15#4] s (s.enterHandler returnPc target) := by
  intro r hr
  simp [State.enterHandler, State.reg_setReg_other _ _ (show r ≠ 15#4 by simpa using hr)]

/-- Outside a delay slot the handler starts as R383 says. -/
theorem State.enterHandler_entersException (idle : s.delay = none) :
    EntersException s returnPc target (s.enterHandler returnPc target) :=
  ⟨(s.pushFrame_holdsSr returnPc).of_same fun b _ => State.enterHandler_byteAt b,
    (s.pushFrame_holdsPc returnPc).of_same fun b _ => State.enterHandler_byteAt b, State.enterHandler_sp,
    State.enterHandler_branchedTo idle,
    fun b outside => (State.enterHandler_byteAt b).trans (s.pushFrame_sameMemOutside returnPc b outside),
    State.enterHandler_sameRegs, State.enterHandler_sameSystem, State.enterHandler_sameParameters⟩

/-- An entry says nothing of SR, the run status and the pending requests. -/
theorem EntersException.withRequests (h : EntersException s returnPc target t) (sr : StatusReg) (status : RunStatus)
    (interrupts : List IntRequest) :
    EntersException s returnPc target { t with sr := sr, status := status, interrupts := interrupts } := h

/-- RTE on a readable frame completes with the frame popped (R344). -/
theorem exec_rte_of_reads (idle : s.delay = none) (readsPc : ReadsLong s (s.reg 15#4) newPc)
    (readsSr : ReadsLong s (s.reg 15#4 + 4#32) newSr) :
    ∃ t, exec .rte s = .next t ∧ t.sr = StatusReg.ofWord newSr ∧ t.reg 15#4 = s.reg 15#4 + 8#32 ∧
      BranchPending newPc s t ∧ SameRegs [15#4] s t ∧ SameSystem s t ∧ SameMem s t ∧ SameRun s t :=
  ⟨_, (outsideSlot_of_none idle).trans (returnFromException_eq_next.2 ⟨newPc, newSr, readsPc, readsSr, rfl⟩), rfl,
    s.reg_setReg_same _ _, ⟨rfl, rfl⟩, fun _ hr => s.reg_setReg_other _ (by simpa using hr),
    ⟨⟨rfl, rfl⟩, ⟨rfl, rfl⟩, rfl⟩, fun _ => rfl, rfl, .refl s, rfl⟩

/-- The two longwords of a frame that has been kept can be popped: the return address, and SR above it. -/
theorem EntersException.frame_readable (h : EntersException s returnPc target t)
    (aligned : (s.reg 15#4 - 8#32).toNat % 4 = 0)
    (kept : ∀ b ∈ span (s.reg 15#4 - 8#32) 8, u.byteAt b = t.byteAt b ∧ u.backed b = true) :
    ReadsLong u (s.reg 15#4 - 8#32) returnPc ∧ ReadsLong u (s.reg 15#4 - 8#32 + 4#32) s.sr.toWord := by
  obtain ⟨holdsSr, holdsPc, -⟩ := h
  have above : s.reg 15#4 - 4#32 = s.reg 15#4 - 8#32 + 4#32 := by bv_omega
  rw [above] at holdsSr
  refine ⟨holdsPc.readsLong_of_kept aligned fun b hb => kept b ?_,
    holdsSr.readsLong_of_kept (by bv_omega) fun b hb => kept b ?_⟩
  all_goals
    rw [mem_span_iff_toNat_sub_lt (by decide)] at hb ⊢
    bv_omega

end

/-! ### Interrupts and sleep -/

section
variable {s : State} {before after : List IntRequest} {r : IntRequest}

/-- Between a branch and its slot, and below the mask, no request is accepted (R395). -/
theorem State.acceptable_eq_none
    (masked : s.delay ≠ none ∨ ∀ q ∈ s.interrupts, q.level.val ≤ s.sr.i.toNat) : s.acceptable = none := by
  unfold State.acceptable
  cases delay : s.delay with
  | some target => rfl
  | none => simpa [IntRequest.exceeds, delay] using masked

/-- The first pending request above the mask is the one accepted. -/
theorem State.acceptable_eq_some (idle : s.delay = none) (pending : s.interrupts = before ++ r :: after)
    (masked : ∀ q ∈ before, q.level.val ≤ s.sr.i.toNat) (above : s.sr.i.toNat < r.level.val) :
    s.acceptable = some r := by
  have passed : before.find? (fun q => q.exceeds s.sr.i) = none := by simpa [IntRequest.exceeds] using masked
  have accepted : r.exceeds s.sr.i = true := decide_eq_true above
  simp [State.acceptable, idle, pending, List.find?_append, passed, accepted]

/-- A sleeping machine, and a running one not at its end, accepts a request before anything else (R346, R395). -/
theorem step_of_acceptable (ready : s.status = .asleep ∨ s.status = .running ∧ s.pc ≠ s.endPc)
    (accepted : s.acceptable = some r) : step s = acceptInterrupt s r := by
  rcases ready with asleep | ⟨running, notEnd⟩
  · simp [step, asleep, accepted]
  · simp [step, running, State.atEnd, notEnd, accepted]

theorem step_of_asleep (asleep : s.status = .asleep) (nothing : s.acceptable = none) :
    step s = .fault .asleepForever := by
  simp [step, asleep, nothing]

/-- The mask becomes the level, and 1111 for level 16 (R395). -/
theorem IntRequest.toNat_mask (r : IntRequest) : r.mask.toNat = min 15 r.level.val := by
  unfold IntRequest.mask
  split
  · next nonMaskable =>
    rw [Nat.min_eq_left (by omega)]
    rfl
  · next maskable =>
    rw [BitVec.toNat_ofNat]
    omega

/-- Only the accepted request is dropped: the ones before it have lower levels. -/
theorem erase_accepted (masked : ∀ q ∈ before, q.level.val ≤ s.sr.i.toNat) (above : s.sr.i.toNat < r.level.val) :
    (before ++ r :: after).erase r = before ++ after := by
  have notBefore : r ∉ before := fun mem => by
    have := masked r mem
    omega
  rw [List.erase_append_right _ notBefore, List.erase_cons_head]

end

end Sys2Proof.Machine

namespace Sys2Proof.Proofs

/-- Settles O52: each meaning writes one of the registers of `State.withSystem`. -/
theorem loadSpecialRegisterResults : Obligations.LoadSpecialRegisterResults := fun _ m =>
  ⟨.of_done rfl ⟨StatusReg.toWord_ofWord _, ⟨rfl, rfl⟩, ⟨rfl, rfl⟩, rfl⟩, append_nibbles _ m _ _,
    .of_done rfl ⟨rfl, rfl, rfl, ⟨rfl, rfl⟩, rfl⟩, append_nibbles _ m _ _,
    .of_done rfl ⟨rfl, rfl, rfl, ⟨rfl, rfl⟩, rfl⟩, append_nibbles _ m _ _,
    .of_done rfl ⟨toNat_lowTenBits _, rfl, ⟨rfl, rfl⟩, rfl, rfl⟩, append_nibbles _ m _ _,
    .of_done rfl ⟨rfl, rfl, ⟨rfl, rfl⟩, rfl, rfl⟩, append_nibbles _ m _ _,
    .of_done rfl ⟨rfl, rfl, ⟨rfl, rfl⟩, ⟨rfl, rfl⟩⟩, append_nibbles _ m _ _⟩

/-- Settles O53, as O52 after the increment of Rm. -/
theorem popSpecialRegisterResults : Obligations.PopSpecialRegisterResults := fun _ _ _ reads =>
  ⟨.of_popLong (fun u w => doneSr u (.ofWord w)) reads rfl rfl
      ⟨StatusReg.toWord_ofWord _, ⟨rfl, rfl⟩, ⟨rfl, rfl⟩, rfl⟩,
    .of_popLong (fun u w => done { u with gbr := w }) reads rfl rfl ⟨rfl, rfl, rfl, ⟨rfl, rfl⟩, rfl⟩,
    .of_popLong (fun u w => done { u with vbr := w }) reads rfl rfl ⟨rfl, rfl, rfl, ⟨rfl, rfl⟩, rfl⟩,
    .of_popLong (fun u w => done { u with mach := w.extractLsb' 0 10 }) reads rfl rfl
      ⟨toNat_lowTenBits _, rfl, ⟨rfl, rfl⟩, rfl, rfl⟩,
    .of_popLong (fun u w => done { u with macl := w }) reads rfl rfl ⟨rfl, rfl, ⟨rfl, rfl⟩, rfl, rfl⟩,
    .of_popLong (fun u w => done { u with pr := w }) reads rfl rfl ⟨rfl, rfl, ⟨rfl, rfl⟩, ⟨rfl, rfl⟩⟩⟩

/-- Settles O54: each meaning is the write of Rn with the longword of the register it names. -/
theorem storeSpecialRegisterResults : Obligations.StoreSpecialRegisterResults := fun s n =>
  ⟨⟨s.sr.toWord, .of_doneReg rfl, s.sr.toWord_and_mask, s.sr.toWord_bits⟩, append_nibbles _ n _ _,
    .of_doneReg rfl, append_nibbles _ n _ _, .of_doneReg rfl, append_nibbles _ n _ _,
    .of_doneReg_eq rfl (sext10_eq_ofInt _), append_nibbles _ n _ _, .of_doneReg rfl, append_nibbles _ n _ _,
    .of_doneReg rfl, append_nibbles _ n _ _⟩

/-- Settles O55: each meaning is the push of the register it names. -/
theorem pushSpecialRegisterResults : Obligations.PushSpecialRegisterResults := fun _ _ storable =>
  ⟨.of_pushLong_eq storable rfl rfl, .of_pushLong_eq storable rfl rfl, .of_pushLong_eq storable rfl rfl,
    .of_pushLong_eq storable rfl (sext10_eq_ofInt _), .of_pushLong_eq storable rfl rfl,
    .of_pushLong_eq storable rfl rfl⟩

/-- Settles O56: SR is written as a whole, so its reserved bits are discarded. -/
theorem returnFromExceptionResult : Obligations.ReturnFromExceptionResult := by
  intro s newPc newSr idle readsPc readsSr
  obtain ⟨t, ht, sr, rest⟩ := exec_rte_of_reads idle readsPc readsSr
  exact ⟨t, ht, by rw [sr, StatusReg.toWord_ofWord], rest⟩

/-- Settles O57: TRAPA is the entry of an exception with the next instruction as the return address. -/
theorem trapEntryResult : Obligations.TrapEntryResult := fun _ _ _ idle storeSr storePc reads =>
  ⟨_, (outsideSlot_of_none idle).trans (enterException_of_vectorReads storeSr storePc reads),
    State.enterHandler_entersException idle, State.enterHandler_sr, State.enterHandler_status,
    State.enterHandler_interrupts⟩

/-- Settles O58: the frame of the trap is aligned and still there, so RTE pops what TRAPA pushed. -/
theorem trapThenReturnRestores : Obligations.TrapThenReturnRestores := by
  intro s t u i trapped sp kept idle
  obtain ⟨idle', entered⟩ :=
    outsideSlot_eq_next.1 (show outsideSlot _ s (enterException s (s.pc + 2#32) i) = .next t from trapped)
  obtain ⟨-, ⟨⟨aligned, -⟩, -⟩, target, -, handler⟩ := enterException_eq_next.1 entered
  have enters : EntersException s (s.pc + 2#32) target t := handler ▸ State.enterHandler_entersException idle'
  have lowered : t.reg 15#4 = s.reg 15#4 - 8#32 := handler ▸ State.enterHandler_sp
  rw [lowered] at sp kept
  obtain ⟨readsPc, readsSr⟩ := enters.frame_readable aligned kept
  rw [← sp] at readsPc readsSr
  obtain ⟨w, hw, sr, raised, pending, regs, system, mem, -⟩ := exec_rte_of_reads idle readsPc readsSr
  refine ⟨w, hw, by rw [sr, StatusReg.ofWord_toWord], ?_, pending, regs, system, mem⟩
  rw [raised, sp, BitVec.sub_add_cancel]

/-- Settles O60: the step accepts the request, which is the entry of an exception, and then touches the mask, the run
status and the pending requests alone. -/
theorem interruptAcceptance : Obligations.InterruptAcceptance := by
  intro s before after r target ready idle pending masked above storeSr storePc reads
  have accepts : step s = acceptInterrupt s r :=
    step_of_acceptable ready (State.acceptable_eq_some idle pending masked above)
  have dropped : (s.enterHandler s.pc target).interrupts.erase r = before ++ after := by
    rw [State.enterHandler_interrupts, pending, erase_accepted masked above]
  rw [accepts, acceptInterrupt, enterException_of_vectorReads storeSr storePc reads, Result.andThen_next]
  exact ⟨_, rfl, (State.enterHandler_entersException idle).withRequests _ _ _, rfl, dropped, r.toNat_mask,
    by rw [State.enterHandler_sr]⟩

/-- Settles O51: each meaning is the write of T, of nothing, or of MACH and MACL. -/
theorem flagAndMacInstructions : Obligations.FlagAndMacInstructions := fun _ =>
  ⟨.of_doneT_eq rfl rfl, rfl, .of_doneT_eq rfl rfl, rfl, .of_doneSr rfl, rfl,
    .of_done rfl ⟨rfl, rfl, rfl, rfl, ⟨rfl, rfl⟩⟩, rfl⟩

/-- Settles O59: SLEEP is the advance of pc with another run status. -/
theorem sleepResult : Obligations.SleepResult := by
  refine ⟨fun s => ?_, fun s asleep masked => step_of_asleep asleep (State.acceptable_eq_none masked)⟩
  obtain ⟨regs, system, mem, ⟨-, params, interrupts⟩, advanced⟩ := regFrame_advance s
  exact ⟨_, rfl, rfl, advanced, regs, s.advance_sr, system, mem, params, interrupts⟩

end Sys2Proof.Proofs
end
